-- ==== Sys2Proof/Word.lean ====
section
/-! DEFINITION. The word types of the PLCVM core (spec/00_scope.md section 5). -/

namespace Sys2Proof

/-- A byte: the unit of the bytecode, of the operand stack and of the data memory (R30). -/
abbrev Byte := BitVec 8

/-- The 16-bit unsigned registers `PC`, `PLEN`, `SP` (R10), the `JMP` target (R54), and the three
capacities, each of which R2 bounds by 65535. -/
abbrev Word16 := BitVec 16

end Sys2Proof
end

