-- ==== Sys2Proof/Config.lean ====
section
/-! DEFINITION. What an instance of the core fixes, and the values the spec leaves open
(spec/00_scope.md R2; spec/41_arithmetic.md R86; spec/93_implementation_defined.md U4, U6, U16). -/

namespace Sys2Proof

/-- The OPEN parameters of R2. Their upper bound 65535 is the width; the lower bounds are
`Params.wf` (WellFormed.lean). -/
structure Params where
  /-- `STACK_CAP`, the capacity of `STACK` in bytes. -/
  stackCap : Word16
  /-- `MEM_SIZE`, the size of `MEM` in bytes. -/
  memSize : Word16
  /-- `PROG_CAP`, the capacity of `PROG` in bytes. -/
  progCap : Word16
  deriving DecidableEq, Repr

/-- DESIGN CHOICE (log entry 1), unsafe: the capacities `State.reset` takes, those of the test vectors of
spec/95_test_vectors.md. R2 leaves them open; every statement quantifies over all of them. -/
def Config.vectorParams : Params := { stackCap := 64, memSize := 64, progCap := 256 }

/-- A binary interchange format: one sign bit, `expBits` exponent bits, `fracBits` fraction bits (R3, G3). -/
structure FloatFormat where
  expBits : Nat
  fracBits : Nat
  deriving DecidableEq, Repr

/-- `F32` is IEEE 754 binary32 (R3, D20). -/
def Config.binary32 : FloatFormat := { expBits := 8, fracBits := 23 }

/-- `F64` is IEEE 754 binary64 (R3, D20). -/
def Config.binary64 : FloatFormat := { expBits := 11, fracBits := 52 }

/-- The float operators of R86. -/
inductive FloatOp where
  | add | sub | mul
  deriving DecidableEq, Repr

/-- FREE VALUE (log entry 5), safe: the bits from which a NaN result is made. R86 point 2 leaves sign, quiet bit
and payload open; by point 3 they depend on the operator and the two operand patterns alone. -/
opaque Config.nanBits (op : FloatOp) (w : Nat) (a b : BitVec w) : BitVec w

/-- FREE VALUE (log entry 6), safe: what a `read<T>` of `n` bytes returns when fewer are on the stack
(R138, D22, U6). `draw` tells one call from another. -/
opaque Config.unspecifiedRead (n : Nat) (draw : Nat) : Nat

end Sys2Proof
end

