-- ==== Sys2Proof/Syntax.lean ====
section
/-! DEFINITION. The Types (spec/00_scope.md R3), the instruction formats (spec/30_encoding.md R50) and the
instructions: one constructor per row of spec/opcode_table.json (R58). -/

namespace Sys2Proof

/-- The eleven Types of R3, in the order of their ids (R52). -/
inductive Ty where
  | bool | u8 | u16 | u32 | u64 | s8 | s16 | s32 | s64 | f32 | f64
  deriving DecidableEq, Repr

/-- The formats of R50: a bare opcode, an opcode and a Type byte, an opcode and an `n`-byte literal, an opcode
and a 2-byte jump offset. -/
inductive Format where
  | op
  | gen
  | lit (n : Nat)
  | jmp
  deriving DecidableEq, Repr

/-- A row of the opcode map R51. -/
structure OpcodeRow where
  opcode : Byte
  name : String
  format : Format
  deriving DecidableEq, Repr

/-- Why bytes are no instruction, named as the fault that R57 raises for it. -/
inductive DecodeError where
  /-- The bytes end before the instruction does (R57 steps 1 and 3). -/
  | fetchOutOfRange
  /-- The opcode byte, or the pair of opcode and Type byte, has no operation (R55). -/
  | invalidOpcode
  deriving DecidableEq, Repr

/-- The instructions. A literal is the raw bit pattern of its width (R54); the Type byte of a generic opcode is
part of the constructor, as it is part of the row. Every term is a valid instruction: the widths are in the types,
and the pairs that R55 refuses have no constructor. -/
inductive Instr where
  | pushBool (imm : BitVec 8)
  | pushU8 (imm : BitVec 8)
  | pushU16 (imm : BitVec 16)
  | pushU32 (imm : BitVec 32)
  | pushU64 (imm : BitVec 64)
  | pushS8 (imm : BitVec 8)
  | pushS16 (imm : BitVec 16)
  | pushS32 (imm : BitVec 32)
  | pushS64 (imm : BitVec 64)
  | pushF32 (imm : BitVec 32)
  | pushF64 (imm : BitVec 64)
  | addU8
  | addU16
  | addU32
  | addU64
  | addS8
  | addS16
  | addS32
  | addS64
  | addF32
  | addF64
  | subU8
  | subU16
  | subU32
  | subU64
  | subS8
  | subS16
  | subS32
  | subS64
  | subF32
  | subF64
  | mulU8
  | mulU16
  | mulU32
  | mulU64
  | mulS8
  | mulS16
  | mulS32
  | mulS64
  | mulF32
  | mulF64
  | cmpEqBool
  | cmpEqU8
  | cmpEqU16
  | cmpEqU32
  | cmpEqU64
  | cmpEqS8
  | cmpEqS16
  | cmpEqS32
  | cmpEqS64
  | cmpEqF32
  | cmpEqF64
  | bwAndX8
  | bwAndX16
  | bwAndX32
  | bwAndX64
  | logicAnd
  | logicOr
  | jmp (target : Word16)
  | exit
  deriving DecidableEq, Repr

end Sys2Proof
end

