-- ==== Sys2Proof/WellFormed.lean ====
section
/-! DEFINITION. What is well formed: an instance's capacities (spec/00_scope.md R2) and the bytes of one
instruction (spec/30_encoding.md R50 to R55, spec/41_arithmetic.md R87), written from the ranges the spec gives
and without the decoder's tables, so that the two can be held against each other. A term of `Instr` needs no check of
its own: its field widths are its type (log entry 18). -/

namespace Sys2Proof

/-- `1 <= STACK_CAP` and `1 <= PROG_CAP` (R2); the upper bounds are the widths of the fields. -/
def Params.wf (p : Params) : Bool := 1 ≤ p.stackCap.toNat && 1 ≤ p.progCap.toNat

/-- The payload length of an opcode byte (R50, R53); none where the byte is invalid (R55 case 1). -/
def payloadLength (op : Byte) : Option Nat :=
  let n := op.toNat
  if n = 0x10 ∨ n = 0x11 ∨ n = 0x15 then some 1
  else if n = 0x12 ∨ n = 0x16 then some 2
  else if n = 0x13 ∨ n = 0x17 ∨ n = 0x19 then some 4
  else if n = 0x14 ∨ n = 0x18 ∨ n = 0x1A then some 8
  else if (0x20 ≤ n ∧ n ≤ 0x22) ∨ n = 0x50 then some 1
  else if (0x30 ≤ n ∧ n ≤ 0x33) ∨ n = 0x40 ∨ n = 0x41 ∨ n = 0x61 then some 0
  else if n = 0x60 then some 2
  else none

/-- The Type bytes an opcode accepts (R55 cases 2 and 3, R87): `ADD`, `SUB`, `MUL` take 0x01 to 0x0A, `CMP_EQ`
0x00 to 0x0A. -/
def typeByteOk (op t : Byte) : Bool :=
  if 0x20 ≤ op.toNat ∧ op.toNat ≤ 0x22 then 1 ≤ t.toNat && t.toNat ≤ 0x0A
  else if op.toNat = 0x50 then t.toNat ≤ 0x0A
  else true

/-- The bytes of exactly one valid instruction: a known opcode, a payload of its length, a Type byte it accepts. -/
def wellFormedBytes (bs : List Byte) : Bool :=
  match bs with
  | [] => false
  | op :: payload =>
    decide (payloadLength op = some payload.length) && typeByteOk op (payload.headD 1)

end Sys2Proof
end

