-- ==== Sys2Proof/Decode.lean ====
section
/-! DEFINITION. Byte order, the opcode map, the decoder and the encoder (spec/30_encoding.md R50 to R59;
spec/20_memory.md R31). -/

namespace Sys2Proof

/-- `byte_k(v)`: bits `8k+7 .. 8k` of `v` (spec/00_scope.md section 5). -/
def byteOf (k v : Nat) : Byte := BitVec.ofNat 8 (v / 256 ^ k)

/-- The `n` bytes of `v`, most significant first (R31). -/
def toBE : Nat → Nat → List Byte
  | 0, _ => []
  | n + 1, v => byteOf n v :: toBE n v

/-- The value of bytes read most significant first: `v <- (v << 8) | byte` for each (R36). -/
def fromBE (bs : List Byte) : Nat := bs.foldl (fun v b => v * 256 + b.toNat) 0

/-- A big-endian field as a pattern of `w` bits (R54). -/
def fieldBE (w : Nat) (bs : List Byte) : BitVec w := BitVec.ofNat w (fromBE bs)

/-- `width(T)` in bytes (R3). -/
def Ty.width : Ty → Nat
  | .bool => 1
  | .u8 => 1
  | .u16 => 2
  | .u32 => 4
  | .u64 => 8
  | .s8 => 1
  | .s16 => 2
  | .s32 => 4
  | .s64 => 8
  | .f32 => 4
  | .f64 => 8

/-- The Type id (R52). -/
def Ty.id : Ty → Byte
  | .bool => 0x00
  | .u8 => 0x01
  | .u16 => 0x02
  | .u32 => 0x03
  | .u64 => 0x04
  | .s8 => 0x05
  | .s16 => 0x06
  | .s32 => 0x07
  | .s64 => 0x08
  | .f32 => 0x09
  | .f64 => 0x0A

/-- The Type a Type byte names; 0x0B to 0xFF name none (R52). -/
def Ty.ofId (t : Byte) : Option Ty :=
  match t with
  | 0x00#8 => some .bool
  | 0x01#8 => some .u8
  | 0x02#8 => some .u16
  | 0x03#8 => some .u32
  | 0x04#8 => some .u64
  | 0x05#8 => some .s8
  | 0x06#8 => some .s16
  | 0x07#8 => some .s32
  | 0x08#8 => some .s64
  | 0x09#8 => some .f32
  | 0x0A#8 => some .f64
  | _ => none

/-- The encoded length of a format (R50). -/
def Format.length : Format → Nat
  | .op => 1
  | .gen => 2
  | .lit n => 1 + n
  | .jmp => 3

/-- The opcode map R51: opcode byte, mnemonic, format. -/
def opcodeTable : List OpcodeRow := [
  ⟨0x10, "PUSH_BOOL", .lit 1⟩,
  ⟨0x11, "PUSH_U8", .lit 1⟩,
  ⟨0x12, "PUSH_U16", .lit 2⟩,
  ⟨0x13, "PUSH_U32", .lit 4⟩,
  ⟨0x14, "PUSH_U64", .lit 8⟩,
  ⟨0x15, "PUSH_S8", .lit 1⟩,
  ⟨0x16, "PUSH_S16", .lit 2⟩,
  ⟨0x17, "PUSH_S32", .lit 4⟩,
  ⟨0x18, "PUSH_S64", .lit 8⟩,
  ⟨0x19, "PUSH_F32", .lit 4⟩,
  ⟨0x1A, "PUSH_F64", .lit 8⟩,
  ⟨0x20, "ADD", .gen⟩,
  ⟨0x21, "SUB", .gen⟩,
  ⟨0x22, "MUL", .gen⟩,
  ⟨0x30, "BW_AND_X8", .op⟩,
  ⟨0x31, "BW_AND_X16", .op⟩,
  ⟨0x32, "BW_AND_X32", .op⟩,
  ⟨0x33, "BW_AND_X64", .op⟩,
  ⟨0x40, "LOGIC_AND", .op⟩,
  ⟨0x41, "LOGIC_OR", .op⟩,
  ⟨0x50, "CMP_EQ", .gen⟩,
  ⟨0x60, "JMP", .jmp⟩,
  ⟨0x61, "EXIT", .op⟩]

/-- The row of an opcode byte; none where the byte is not in the map (R51, R55 case 1). -/
def opcodeRow (op : Byte) : Option OpcodeRow := opcodeTable.find? (fun r => r.opcode == op)

/-- `len(op)` (R53); none where the opcode is invalid. -/
def instrLength (op : Byte) : Option Nat := (opcodeRow op).map (fun r => r.format.length)

/-- The Type a generic instruction's payload names (R54, R52). -/
def typeField (payload : List Byte) : Option Ty := payload.head?.bind Ty.ofId

/-- `ADD` with a Type; BOOL has no addition (R55 case 3, R85, R87). -/
def addOf : Ty → Option Instr
  | .bool => none
  | .u8 => some .addU8
  | .u16 => some .addU16
  | .u32 => some .addU32
  | .u64 => some .addU64
  | .s8 => some .addS8
  | .s16 => some .addS16
  | .s32 => some .addS32
  | .s64 => some .addS64
  | .f32 => some .addF32
  | .f64 => some .addF64

/-- `SUB` with a Type; BOOL has no subtraction (R55 case 3, R85, R87). -/
def subOf : Ty → Option Instr
  | .bool => none
  | .u8 => some .subU8
  | .u16 => some .subU16
  | .u32 => some .subU32
  | .u64 => some .subU64
  | .s8 => some .subS8
  | .s16 => some .subS16
  | .s32 => some .subS32
  | .s64 => some .subS64
  | .f32 => some .subF32
  | .f64 => some .subF64

/-- `MUL` with a Type; BOOL has no multiplication (R55 case 3, R85, R87). -/
def mulOf : Ty → Option Instr
  | .bool => none
  | .u8 => some .mulU8
  | .u16 => some .mulU16
  | .u32 => some .mulU32
  | .u64 => some .mulU64
  | .s8 => some .mulS8
  | .s16 => some .mulS16
  | .s32 => some .mulS32
  | .s64 => some .mulS64
  | .f32 => some .mulF32
  | .f64 => some .mulF64

/-- `CMP_EQ` with a Type; all eleven are valid (R110). -/
def cmpEqOf : Ty → Instr
  | .bool => .cmpEqBool
  | .u8 => .cmpEqU8
  | .u16 => .cmpEqU16
  | .u32 => .cmpEqU32
  | .u64 => .cmpEqU64
  | .s8 => .cmpEqS8
  | .s16 => .cmpEqS16
  | .s32 => .cmpEqS32
  | .s64 => .cmpEqS64
  | .f32 => .cmpEqF32
  | .f64 => .cmpEqF64

/-- The instruction of an opcode byte and its payload (R57, `case format(op)`). -/
def instrOf (op : Byte) (payload : List Byte) : Option Instr :=
  match op with
  | 0x10#8 => some (.pushBool (fieldBE 8 payload))
  | 0x11#8 => some (.pushU8 (fieldBE 8 payload))
  | 0x12#8 => some (.pushU16 (fieldBE 16 payload))
  | 0x13#8 => some (.pushU32 (fieldBE 32 payload))
  | 0x14#8 => some (.pushU64 (fieldBE 64 payload))
  | 0x15#8 => some (.pushS8 (fieldBE 8 payload))
  | 0x16#8 => some (.pushS16 (fieldBE 16 payload))
  | 0x17#8 => some (.pushS32 (fieldBE 32 payload))
  | 0x18#8 => some (.pushS64 (fieldBE 64 payload))
  | 0x19#8 => some (.pushF32 (fieldBE 32 payload))
  | 0x1A#8 => some (.pushF64 (fieldBE 64 payload))
  | 0x20#8 => (typeField payload).bind addOf
  | 0x21#8 => (typeField payload).bind subOf
  | 0x22#8 => (typeField payload).bind mulOf
  | 0x30#8 => some .bwAndX8
  | 0x31#8 => some .bwAndX16
  | 0x32#8 => some .bwAndX32
  | 0x33#8 => some .bwAndX64
  | 0x40#8 => some .logicAnd
  | 0x41#8 => some .logicOr
  | 0x50#8 => (typeField payload).map cmpEqOf
  | 0x60#8 => some (.jmp (fieldBE 16 payload))
  | 0x61#8 => some .exit
  | _ => none

/-- Decoding, with the checks in the order of R57 (steps 1 to 4): the opcode byte is there, it is in the map, its
payload is there, its Type byte is valid. Answers the instruction and the bytes after it. -/
def decode (bs : List Byte) : Except DecodeError (Instr × List Byte) :=
  match bs with
  | [] => .error .fetchOutOfRange
  | op :: rest =>
    match instrLength op with
    | none => .error .invalidOpcode
    | some len =>
      if rest.length < len - 1 then .error .fetchOutOfRange
      else
        match instrOf op (rest.take (len - 1)) with
        | none => .error .invalidOpcode
        | some i => .ok (i, rest.drop (len - 1))

/-- The bytes of an instruction (R50, R51, R52), as the builders of R59 append them. -/
def encode : Instr → List Byte
  | .pushBool imm => 0x10 :: toBE 1 imm.toNat
  | .pushU8 imm => 0x11 :: toBE 1 imm.toNat
  | .pushU16 imm => 0x12 :: toBE 2 imm.toNat
  | .pushU32 imm => 0x13 :: toBE 4 imm.toNat
  | .pushU64 imm => 0x14 :: toBE 8 imm.toNat
  | .pushS8 imm => 0x15 :: toBE 1 imm.toNat
  | .pushS16 imm => 0x16 :: toBE 2 imm.toNat
  | .pushS32 imm => 0x17 :: toBE 4 imm.toNat
  | .pushS64 imm => 0x18 :: toBE 8 imm.toNat
  | .pushF32 imm => 0x19 :: toBE 4 imm.toNat
  | .pushF64 imm => 0x1A :: toBE 8 imm.toNat
  | .addU8 => [0x20, 0x01]
  | .addU16 => [0x20, 0x02]
  | .addU32 => [0x20, 0x03]
  | .addU64 => [0x20, 0x04]
  | .addS8 => [0x20, 0x05]
  | .addS16 => [0x20, 0x06]
  | .addS32 => [0x20, 0x07]
  | .addS64 => [0x20, 0x08]
  | .addF32 => [0x20, 0x09]
  | .addF64 => [0x20, 0x0A]
  | .subU8 => [0x21, 0x01]
  | .subU16 => [0x21, 0x02]
  | .subU32 => [0x21, 0x03]
  | .subU64 => [0x21, 0x04]
  | .subS8 => [0x21, 0x05]
  | .subS16 => [0x21, 0x06]
  | .subS32 => [0x21, 0x07]
  | .subS64 => [0x21, 0x08]
  | .subF32 => [0x21, 0x09]
  | .subF64 => [0x21, 0x0A]
  | .mulU8 => [0x22, 0x01]
  | .mulU16 => [0x22, 0x02]
  | .mulU32 => [0x22, 0x03]
  | .mulU64 => [0x22, 0x04]
  | .mulS8 => [0x22, 0x05]
  | .mulS16 => [0x22, 0x06]
  | .mulS32 => [0x22, 0x07]
  | .mulS64 => [0x22, 0x08]
  | .mulF32 => [0x22, 0x09]
  | .mulF64 => [0x22, 0x0A]
  | .cmpEqBool => [0x50, 0x00]
  | .cmpEqU8 => [0x50, 0x01]
  | .cmpEqU16 => [0x50, 0x02]
  | .cmpEqU32 => [0x50, 0x03]
  | .cmpEqU64 => [0x50, 0x04]
  | .cmpEqS8 => [0x50, 0x05]
  | .cmpEqS16 => [0x50, 0x06]
  | .cmpEqS32 => [0x50, 0x07]
  | .cmpEqS64 => [0x50, 0x08]
  | .cmpEqF32 => [0x50, 0x09]
  | .cmpEqF64 => [0x50, 0x0A]
  | .bwAndX8 => [0x30]
  | .bwAndX16 => [0x31]
  | .bwAndX32 => [0x32]
  | .bwAndX64 => [0x33]
  | .logicAnd => [0x40]
  | .logicOr => [0x41]
  | .jmp target => 0x60 :: toBE 2 target.toNat
  | .exit => [0x61]

/-- The length of the longest instruction (R53). -/
def maxLength : Nat := 9

/-- The bytes, in ascending offset order and up to the longest instruction, that a table number stands for
(DEDUCED, log entry 9). The table numbers a row over the bytes that select it (R58): one byte, the opcode, for `OP`,
`LITn` and `JMP`, whose later bytes then count on from bit 8; and one big-endian 2-byte number, opcode above Type
id, for `GEN`. No opcode byte is a Type id, so the low byte tells which it is. -/
def tableBytes (nbits w : Nat) : List Byte :=
  let v := w % 2 ^ nbits
  if v % 256 ≤ 0x0A then byteOf 1 v :: byteOf 0 v :: (List.range 7).map (fun k => byteOf (k + 2) v)
  else (List.range maxLength).map (fun k => byteOf k v)

/-- The instruction the decoder reads from a row's number, none where it refuses. -/
def decodeTableWord (nbits w : Nat) : Option Instr :=
  match decode (tableBytes nbits w) with
  | .ok (i, _) => some i
  | .error _ => none

end Sys2Proof
end

