-- ==== Sys2Proof/Machine/State.lean ====
section
/-! DEFINITION. The architectural state (spec/10_state.md R10 to R22), its reset (R21, R170), and the reasons a
step can stop. -/

namespace Sys2Proof.Machine

/-- One byte-addressed space (R30) as the list of its bytes that are not 0x00, addresses strictly rising (`Memory.wf`
in Machine/Ops.lean). An unlisted address reads 0x00, the reset contents (R21; log entry 8). -/
structure Memory where
  cells : List Host.Cell
  deriving DecidableEq, Repr

/-- The faults of R150. A fault is recorded in `STATUS` and the machine halts (R158): that is a NEXT state
(`State.takeFault`, `Status.faulted`), so no step answers `Host.Outcome.fault` (log entry 3, safe). -/
inductive Fault where
  /-- Raised by the literal pushes: "a push would exceed Stack capacity" (R152). Safe: the spec's own fault. -/
  | stackOverflow
  /-- Raised by the popping instructions: "an operator needs more operands than are present" (R151). Safe. -/
  | stackUnderflow
  /-- Raised by any step whose opcode, or opcode and Type byte, has no operation (R153). Safe. -/
  | invalidOpcode
  /-- Raised by `JMP` when the target is not below `PLEN` (R154). Safe. -/
  | jumpOutOfRange
  /-- Reserved: no instruction raises it (R155); `MemRead` and `MemWrite` would (R34). Safe. -/
  | memoryOutOfRange
  /-- Raised by any step that would fetch a byte at or above `PLEN` (R156). Safe. -/
  | fetchOutOfRange
  deriving DecidableEq, Repr

/-- The reasons the model gives no meaning. No instruction of this model is refused. -/
inductive Refusal where
  /-- An instruction that the model rejects by its mnemonic; raised by no arm of `exec`. Safe. -/
  | notModelled (mnemonic : String)
  deriving DecidableEq, Repr

/-- `STATUS`, by name (R18; claims name it and do not use the numbers: D7, U5; log entry 11). -/
inductive Status where
  /-- Not terminal: NotStarted or Running (R20). -/
  | success
  /-- Terminal, not an error (R160). -/
  | exited
  /-- Terminal fault (R150). -/
  | faulted (k : Fault)
  deriving DecidableEq, Repr

/-- The eight elements of R10, and the model arguments of R2. -/
structure State where
  /-- The capacities: no state of the spec but its model arguments, which nothing changes (log entry 1). -/
  params : Params
  /-- `PROG`, the program buffer (R11). -/
  prog : Memory
  /-- `PLEN`, the number of bytes appended (R11). -/
  plen : Word16
  /-- `PC`, the offset of the next instruction (R12). -/
  pc : Word16
  /-- `EXITF`, whether an `EXIT` has executed since the last erase (R13). -/
  exitf : Bool
  /-- `STACK`, the operand stack's bytes (R14). -/
  stack : Memory
  /-- `SP`, the number of occupied bytes (R14). -/
  sp : Word16
  /-- `MEM`, the data memory, which no instruction reaches (R17). -/
  mem : Memory
  /-- `STATUS`, the result of the last step (R18). -/
  status : Status
  deriving DecidableEq, Repr

/-- A space whose every byte is 0x00. -/
def Memory.zero : Memory := { cells := [] }

/-- The state at construction for given capacities (R21, R170). -/
def State.resetWith (p : Params) : State :=
  { params := p, prog := Memory.zero, plen := 0, pc := 0, exitf := false,
    stack := Memory.zero, sp := 0, mem := Memory.zero, status := .success }

/-- The machine right after reset (R21, R170), with the capacities of the test vectors (log entry 1). -/
def State.reset : State := State.resetWith Config.vectorParams

end Sys2Proof.Machine
end

