-- ==== Sys2Proof/Machine/Ops.lean ====
section
/-! DEFINITION. The named operations over the three byte spaces, the operand stack and the fetch unit, and taking a
fault (spec/10_state.md R14 to R18; spec/20_memory.md R30 to R36; spec/60_exceptions.md R158). -/

namespace Sys2Proof.Machine

/-! ### One byte space -/

/-- The byte at an address; an unlisted one reads 0x00. -/
def readCells : List Host.Cell → Nat → Byte
  | [], _ => 0
  | (b, w) :: rest, a => if b = a then w else readCells rest a

/-- The list with the byte at `a` made `v`, for a `v` that is listed. -/
def insertCell (a : Nat) (v : Byte) : List Host.Cell → List Host.Cell
  | [] => [(a, v)]
  | (b, w) :: rest =>
    if a < b then (a, v) :: (b, w) :: rest
    else if a = b then (a, v) :: rest
    else (b, w) :: insertCell a v rest

/-- The list with the byte at `a` made `v`: writing 0x00, what an unlisted address reads, takes `a` off the list. -/
def writeCells (cells : List Host.Cell) (a : Nat) (v : Byte) : List Host.Cell :=
  if v = 0 then cells.filter (fun c => c.1 ≠ a) else insertCell a v cells

/-- Whether every address is at least `lo` and below `cap`, the addresses strictly rise, and no byte is 0x00. -/
def wfCells (cap : Nat) : Nat → List Host.Cell → Bool
  | _, [] => true
  | lo, (a, v) :: rest => decide (lo ≤ a) && decide (a < cap) && decide (v ≠ 0) && wfCells cap (a + 1) rest

/-- The canonical form of a space of `cap` bytes. -/
def Memory.wf (cap : Nat) (m : Memory) : Bool := wfCells cap 0 m.cells

/-- One byte of a space. -/
def Memory.read (m : Memory) (a : Nat) : Byte := readCells m.cells a

/-- A space with one byte written. -/
def Memory.write (m : Memory) (a : Nat) (v : Byte) : Memory := { cells := writeCells m.cells a v }

/-- The `n` bytes from `a` on, in ascending order. -/
def Memory.readBytes (m : Memory) : Nat → Nat → List Byte
  | _, 0 => []
  | a, n + 1 => m.read a :: m.readBytes (a + 1) n

/-- A space with bytes written from `a` on, in ascending order. -/
def Memory.writeBytes (m : Memory) (a : Nat) : List Byte → Memory
  | [] => m
  | b :: bs => (m.write a b).writeBytes (a + 1) bs

/-! ### The data memory, which no instruction reaches (R34) -/

/-- `MemRead(a, n)`: big-endian, MemoryOutOfRange past `MEM_SIZE` (R34). -/
def State.memRead (s : State) (a n : Nat) : Except Fault Nat :=
  if s.params.memSize.toNat < a + n then .error .memoryOutOfRange
  else .ok (fromBE (s.mem.readBytes a n))

/-- `MemWrite(a, n, v)`: big-endian, MemoryOutOfRange past `MEM_SIZE` (R34). -/
def State.memWrite (s : State) (a n v : Nat) : Except Fault State :=
  if s.params.memSize.toNat < a + n then .error .memoryOutOfRange
  else .ok { s with mem := s.mem.writeBytes a (toBE n v) }

/-! ### The operand stack (R14 to R16). A value of `w` bits takes `w / 8` bytes. -/

/-- `Top(n)`: the top `n` bytes, most significant first (R16); meant for `SP >= n`. -/
def State.topBytes (s : State) (n : Nat) : List Byte := s.stack.readBytes (s.sp.toNat - n) n

/-- `Top` as a pattern of `w` bits (R16). -/
def State.top (s : State) (w : Nat) : BitVec w := fieldBE w (s.topBytes (w / 8))

/-- The check an instruction makes once on all the bytes it pops (R16, R151). -/
def State.need (s : State) (n : Nat) : Except Fault Unit :=
  if s.sp.toNat < n then .error .stackUnderflow else .ok ()

/-- `Pop` of a `w`-bit value (R16). The popped bytes stay in `STACK` above `SP` (R14). -/
def State.pop (s : State) (w : Nat) : Except Fault (BitVec w × State) :=
  if s.sp.toNat < w / 8 then .error .stackUnderflow
  else .ok (s.top w, { s with sp := s.sp - BitVec.ofNat 16 (w / 8) })

/-- `Push` of a `w`-bit value (R15). `SP` cannot wrap: it ends at most at `STACK_CAP`. -/
def State.push (s : State) {w : Nat} (v : BitVec w) : Except Fault State :=
  if s.params.stackCap.toNat < s.sp.toNat + w / 8 then .error .stackOverflow
  else .ok { s with
    stack := s.stack.writeBytes s.sp.toNat (toBE (w / 8) v.toNat)
    sp := s.sp + BitVec.ofNat 16 (w / 8) }

/-! ### Faults, completion and the program counter -/

/-- The numeric code of a fault (R18, D7). -/
def Fault.code : Fault → Byte
  | .stackOverflow => 2
  | .stackUnderflow => 3
  | .invalidOpcode => 4
  | .jumpOutOfRange => 5
  | .memoryOutOfRange => 6
  | .fetchOutOfRange => 7

/-- The 8-bit code that `STATUS` holds (R18, D7). -/
def Status.code : Status → Byte
  | .success => 0
  | .exited => 1
  | .faulted k => k.code

/-- TAKING A FAULT: `STATUS <-` the fault and nothing else (R158). There is no return from one (R159); what leaves a
terminal status is `State.clear` (Machine/Commands.lean). -/
def State.takeFault (s : State) (k : Fault) : State := { s with status := .faulted k }

/-- `pc <- PC + len(op)` (R123). `step` has checked that the sum is at most `PLEN` (log entry 12). -/
def State.advance (s : State) (len : Nat) : State := { s with pc := s.pc + BitVec.ofNat 16 len }

/-- The end of an instruction that began in `s`: Success where it completed, the fault, with nothing else changed, where it
raised one (R57, R158). -/
def State.finish (s : State) (r : Except Fault State) : Host.Outcome State Fault Refusal :=
  match r with
  | .ok t => .next { t with status := .success }
  | .error k => .next (s.takeFault k)

/-! ### Fetch (R36) -/

/-- `Fetch(a)` (R36). -/
def State.fetch (s : State) (a : Nat) : Except Fault Byte :=
  if s.plen.toNat ≤ a then .error .fetchOutOfRange else .ok (s.prog.read a)

/-- The program bytes that can be fetched from `PC` on, at most the longest instruction's. -/
def State.fetchWindow (s : State) : List Byte :=
  s.prog.readBytes s.pc.toNat (min maxLength (s.plen.toNat - s.pc.toNat))

/-- The fault that R57 raises where the bytes are no instruction. -/
def faultOf : DecodeError → Fault
  | .fetchOutOfRange => .fetchOutOfRange
  | .invalidOpcode => .invalidOpcode

/-- Fetching and decoding the instruction at `PC`, with the checks of R57 steps 1 to 4. -/
def State.fetchInstr (s : State) : Except Fault Instr :=
  match decode s.fetchWindow with
  | .ok (i, _) => .ok i
  | .error e => .error (faultOf e)

/-! ### Placing an instruction where `step` fetches it (log entry 2) -/

/-- `s` with bytes stored from `PC` on as far as `PROG` reaches, `PLEN` at least past them, and `STATUS` Success, so that
the next step fetches them. -/
def State.placeAtPc (s : State) (bs : List Byte) : State :=
  let room := s.params.progCap.toNat - s.pc.toNat
  let kept := bs.take room
  { s with
    prog := s.prog.writeBytes s.pc.toNat kept
    plen := BitVec.ofNat 16 (max s.plen.toNat (s.pc.toNat + kept.length))
    status := .success }

end Sys2Proof.Machine
end

