-- ==== Sys2Proof/Machine/Flags.lean ====
section
/-! DEFINITION. Truth values and the one flag. The machine has no condition codes (spec/10_state.md R13): a
comparison's outcome is a byte on the stack (spec/43_logic.md R100), and the only flag is `EXITF`. -/

namespace Sys2Proof.Machine

/-- `truth(x)`: every byte but 0x00 is true (R100). -/
def truth (x : Byte) : Bool := x ≠ 0

/-- `bool(p)`: the canonical boolean, 0x01 or 0x00 (R100). -/
def boolByte (p : Bool) : Byte := if p then 1 else 0

/-- `eq(T, a, b)` for BOOL and the integer Types: bit for bit (R111). -/
def eqBits {w : Nat} (a b : BitVec w) : Bool := a = b

/-- `EXITF <- 1`, by `EXIT` (R121). -/
def State.setExitFlag (s : State) : State := { s with exitf := true }

/-- `EXITF <- 0`, by `erase` (R130). -/
def State.clearExitFlag (s : State) : State := { s with exitf := false }

end Sys2Proof.Machine
end

