-- ==== Sys2Proof/Machine/Float.lean ====
section
/-! DEFINITION. IEEE 754 addition, subtraction, multiplication and equality on bit patterns (spec/41_arithmetic.md
R86, spec/44_compare.md R112). Every finite datum is a whole number of UNITS, the format's least positive subnormal
`2 ^ (1 - bias - fracBits)`, so sums are exact integers of units and products exact integers of squared units;
the exact value is rounded once, to nearest, ties to even (R86 point 1, D20). -/

namespace Sys2Proof.Machine

/-! ### Fields of a pattern (a pattern is its unsigned number) -/

/-- The weight of the sign bit. -/
def signWeight (F : FloatFormat) : Nat := 2 ^ (F.expBits + F.fracBits)

/-- The magnitude pattern of infinity: all exponent bits set, no fraction bit. Larger magnitudes are NaNs. -/
def infMag (F : FloatFormat) : Nat := (2 ^ F.expBits - 1) * 2 ^ F.fracBits

/-- The sign bit. -/
def isNeg (F : FloatFormat) (p : Nat) : Bool := signWeight F ≤ p

/-- The pattern less its sign bit. -/
def magOf (F : FloatFormat) (p : Nat) : Nat := p % signWeight F

/-- Whether a pattern is a NaN. -/
def isNaN (F : FloatFormat) (p : Nat) : Bool := infMag F < magOf F p

/-- Whether a pattern is an infinity. -/
def isInf (F : FloatFormat) (p : Nat) : Bool := magOf F p = infMag F

/-- Whether a pattern is +0 or -0. -/
def isZero (F : FloatFormat) (p : Nat) : Bool := magOf F p = 0

/-- A magnitude pattern with a sign. -/
def withSign (F : FloatFormat) (neg : Bool) (mag : Nat) : Nat := if neg then signWeight F + mag else mag

/-- The pattern with its sign bit inverted. -/
def flipSign (F : FloatFormat) (p : Nat) : Nat := withSign F (!isNeg F p) (magOf F p)

/-! ### Values and rounding -/

/-- The units in a magnitude pattern: the fraction alone in the lowest binade (zero and the subnormals), the hidden bit above it
and the exponent's shift elsewhere. -/
def unitsOfMag (F : FloatFormat) (m : Nat) : Nat :=
  let e := m / 2 ^ F.fracBits
  let f := m % 2 ^ F.fracBits
  if e = 0 then f else (2 ^ F.fracBits + f) * 2 ^ (e - 1)

/-- The signed number of units in a finite pattern. -/
def unitsOf (F : FloatFormat) (p : Nat) : Int :=
  if isNeg F p then -(unitsOfMag F (magOf F p) : Int) else (unitsOfMag F (magOf F p) : Int)

/-- `num / den` rounded to the nearest integer, a tie to the even one (roundTiesToEven, D20). -/
def divNearestEven (num den : Nat) : Nat :=
  let q := num / den
  let r := num % den
  if 2 * r < den then q
  else if den < 2 * r then q + 1
  else if q % 2 = 0 then q else q + 1

/-- The magnitude pattern nearest to `num / 2 ^ scale` units. `q` is the exponent shift at which the quotient keeps
`fracBits + 1` bits, 0 in the lowest binade; a significand that rounds up to the next power of two carries into the exponent;
beyond the greatest finite magnitude the result is infinity. -/
def roundMag (F : FloatFormat) (num scale : Nat) : Nat :=
  let q := Nat.log2 num + 1 - (scale + F.fracBits + 1)
  min (q * 2 ^ F.fracBits + divNearestEven num (2 ^ (scale + q))) (infMag F)

/-- The scale at which a product of two numbers of units is again in units: one unit is `2 ^ -(bias + fracBits - 1)`. -/
def productScale (F : FloatFormat) : Nat := (2 ^ (F.expBits - 1) - 1) + F.fracBits - 1

/-! ### The operators -/

/-- Some NaN made from free bits: any sign, any fraction that is not 0 (R86 point 2; log entry 5). -/
def nanFrom (F : FloatFormat) (free : Nat) : Nat :=
  let f := free % 2 ^ F.fracBits
  withSign F (isNeg F free) (infMag F + (if f = 0 then 2 ^ (F.fracBits - 1) else f))

/-- The sum of two patterns that are no NaN, none where the operation is invalid (infinities of unlike sign). A sum that is
exactly zero is +0 unless both operands are negative (R86 point 1; log entry 7). -/
def addPatterns (F : FloatFormat) (a b : Nat) : Option Nat :=
  if isInf F a then (if isInf F b && (isNeg F a != isNeg F b) then none else some a)
  else if isInf F b then some b
  else
    let x := unitsOf F a + unitsOf F b
    if x = 0 then some (withSign F (isNeg F a && isNeg F b) 0)
    else some (withSign F (x < 0) (roundMag F x.natAbs 0))

/-- The product of two patterns that are no NaN, none where the operation is invalid (zero times infinity). The sign is
negative where the operands' signs differ (R86 point 1; log entry 7). -/
def mulPatterns (F : FloatFormat) (a b : Nat) : Option Nat :=
  let neg := isNeg F a != isNeg F b
  if isInf F a || isInf F b then
    (if isZero F a || isZero F b then none else some (withSign F neg (infMag F)))
  else
    some (withSign F neg
      (roundMag F (unitsOfMag F (magOf F a) * unitsOfMag F (magOf F b)) (productScale F)))

/-- An operator on patterns: a NaN operand or an invalid operation gives a NaN with free bits (R86 point 2). -/
def floatOp (F : FloatFormat) (op : FloatOp) (w : Nat) (f : Nat → Nat → Option Nat) (a b : BitVec w) : BitVec w :=
  let nan := nanFrom F (Config.nanBits op w a b).toNat
  BitVec.ofNat w
    (if isNaN F a.toNat || isNaN F b.toNat then nan
     else match f a.toNat b.toNat with
      | some r => r
      | none => nan)

/-- `fadd_N` (R86). -/
def fadd (F : FloatFormat) {w : Nat} (a b : BitVec w) : BitVec w := floatOp F .add w (addPatterns F) a b

/-- `fsub_N(a, b)`: `a - b`, the sum of `a` and `b` with its sign inverted (R86). -/
def fsub (F : FloatFormat) {w : Nat} (a b : BitVec w) : BitVec w :=
  floatOp F .sub w (fun x y => addPatterns F x (flipSign F y)) a b

/-- `fmul_N` (R86). -/
def fmul (F : FloatFormat) {w : Nat} (a b : BitVec w) : BitVec w := floatOp F .mul w (mulPatterns F) a b

/-- `feq_N`: false with a NaN operand, true of two zeros of either sign, else equality of the patterns (R112). -/
def feq (F : FloatFormat) {w : Nat} (a b : BitVec w) : Bool :=
  !isNaN F a.toNat && !isNaN F b.toNat && ((isZero F a.toNat && isZero F b.toNat) || decide (a = b))

end Sys2Proof.Machine
end

