-- ==== Sys2Proof/Machine/Operands.lean ====
section
/-! DEFINITION. The operand forms (spec/30_encoding.md R54): a literal of the instruction that is pushed
(spec/40_literal_push.md R61), and two operands of one width on the stack, the right-hand one on top
(spec/41_arithmetic.md R80, spec/42_bitwise.md R90, spec/43_logic.md, spec/44_compare.md R110). -/

namespace Sys2Proof.Machine

/-- The common body of the literal pushes (R61): push the literal, pass the opcode byte and the literal. -/
def pushLiteral {w : Nat} (imm : BitVec w) (s : State) : Except Fault State := do
  let t ← s.push imm
  return t.advance (1 + w / 8)

/-- The common body of the binary operators, of encoded length `len`: one check for both operands, pop the right-hand
operand `b` and then the left-hand `a`, push `f a b`, pass the instruction (R80, R90, R101, R102, R110). -/
def binary {w r : Nat} (len : Nat) (f : BitVec w → BitVec w → BitVec r) (s : State) : Except Fault State := do
  s.need (2 * (w / 8))
  let (b, s1) ← s.pop w
  let (a, s2) ← s1.pop w
  let s3 ← s2.push (f a b)
  return s3.advance len

/-- `trunc_N` of an exact integer (spec/00_scope.md section 5). -/
def truncTo (w : Nat) (x : Int) : BitVec w := BitVec.ofInt w x

/-- `trunc_N(a + b)` (R81, R84). -/
def addInt {w : Nat} (a b : BitVec w) : BitVec w := truncTo w ((a.toNat : Int) + (b.toNat : Int))

/-- `trunc_N(a - b)`, left minus right (R82, R84). -/
def subInt {w : Nat} (a b : BitVec w) : BitVec w := truncTo w ((a.toNat : Int) - (b.toNat : Int))

/-- `trunc_N(a * b)` (R83, R84). -/
def mulInt {w : Nat} (a b : BitVec w) : BitVec w := truncTo w ((a.toNat : Int) * (b.toNat : Int))

/-- `ADD`, `SUB`, `MUL` frame: length 2 (R80). -/
def arith {w : Nat} (f : BitVec w → BitVec w → BitVec w) (s : State) : Host.Outcome State Fault Refusal :=
  s.finish (binary 2 f s)

/-- `BW_AND(n)`: length 1, result `a AND b` (R90). -/
def bitAnd (w : Nat) (s : State) : Host.Outcome State Fault Refusal :=
  s.finish (binary 1 (fun (a b : BitVec w) => a &&& b) s)

/-- `LOGIC_AND`, `LOGIC_OR` frame: length 1, two 1-byte booleans, a canonical result (R101, R102). -/
def logic (f : Bool → Bool → Bool) (s : State) : Host.Outcome State Fault Refusal :=
  s.finish (binary 1 (fun (a b : Byte) => boolByte (f (truth a) (truth b))) s)

/-- `CMP_EQ` frame: length 2, a canonical 1-byte result whatever the operands' width (R110). -/
def compare (w : Nat) (eq : BitVec w → BitVec w → Bool) (s : State) : Host.Outcome State Fault Refusal :=
  s.finish (binary 2 (fun (a b : BitVec w) => boolByte (eq a b)) s)

end Sys2Proof.Machine
end

