-- ==== Sys2Proof/Machine/Arith.lean ====
section
/-! DEFINITION. `ADD`, `SUB`, `MUL` with each Type that has them (spec/41_arithmetic.md R80 to R87). -/

namespace Sys2Proof.Machine

/-- `ADD U8` (R81, R84). -/
def execAddU8 (s : State) : Host.Outcome State Fault Refusal := arith (addInt (w := 8)) s

/-- `ADD U16` (R81, R84). -/
def execAddU16 (s : State) : Host.Outcome State Fault Refusal := arith (addInt (w := 16)) s

/-- `ADD U32` (R81, R84). -/
def execAddU32 (s : State) : Host.Outcome State Fault Refusal := arith (addInt (w := 32)) s

/-- `ADD U64` (R81, R84). -/
def execAddU64 (s : State) : Host.Outcome State Fault Refusal := arith (addInt (w := 64)) s

/-- `ADD S8` (R81, R84). -/
def execAddS8 (s : State) : Host.Outcome State Fault Refusal := arith (addInt (w := 8)) s

/-- `ADD S16` (R81, R84). -/
def execAddS16 (s : State) : Host.Outcome State Fault Refusal := arith (addInt (w := 16)) s

/-- `ADD S32` (R81, R84). -/
def execAddS32 (s : State) : Host.Outcome State Fault Refusal := arith (addInt (w := 32)) s

/-- `ADD S64` (R81, R84). -/
def execAddS64 (s : State) : Host.Outcome State Fault Refusal := arith (addInt (w := 64)) s

/-- `ADD F32` (R81, R86). -/
def execAddF32 (s : State) : Host.Outcome State Fault Refusal := arith (fadd Config.binary32 (w := 32)) s

/-- `ADD F64` (R81, R86). -/
def execAddF64 (s : State) : Host.Outcome State Fault Refusal := arith (fadd Config.binary64 (w := 64)) s

/-- `SUB U8` (R82, R84). -/
def execSubU8 (s : State) : Host.Outcome State Fault Refusal := arith (subInt (w := 8)) s

/-- `SUB U16` (R82, R84). -/
def execSubU16 (s : State) : Host.Outcome State Fault Refusal := arith (subInt (w := 16)) s

/-- `SUB U32` (R82, R84). -/
def execSubU32 (s : State) : Host.Outcome State Fault Refusal := arith (subInt (w := 32)) s

/-- `SUB U64` (R82, R84). -/
def execSubU64 (s : State) : Host.Outcome State Fault Refusal := arith (subInt (w := 64)) s

/-- `SUB S8` (R82, R84). -/
def execSubS8 (s : State) : Host.Outcome State Fault Refusal := arith (subInt (w := 8)) s

/-- `SUB S16` (R82, R84). -/
def execSubS16 (s : State) : Host.Outcome State Fault Refusal := arith (subInt (w := 16)) s

/-- `SUB S32` (R82, R84). -/
def execSubS32 (s : State) : Host.Outcome State Fault Refusal := arith (subInt (w := 32)) s

/-- `SUB S64` (R82, R84). -/
def execSubS64 (s : State) : Host.Outcome State Fault Refusal := arith (subInt (w := 64)) s

/-- `SUB F32` (R82, R86). -/
def execSubF32 (s : State) : Host.Outcome State Fault Refusal := arith (fsub Config.binary32 (w := 32)) s

/-- `SUB F64` (R82, R86). -/
def execSubF64 (s : State) : Host.Outcome State Fault Refusal := arith (fsub Config.binary64 (w := 64)) s

/-- `MUL U8` (R83, R84). -/
def execMulU8 (s : State) : Host.Outcome State Fault Refusal := arith (mulInt (w := 8)) s

/-- `MUL U16` (R83, R84). -/
def execMulU16 (s : State) : Host.Outcome State Fault Refusal := arith (mulInt (w := 16)) s

/-- `MUL U32` (R83, R84). -/
def execMulU32 (s : State) : Host.Outcome State Fault Refusal := arith (mulInt (w := 32)) s

/-- `MUL U64` (R83, R84). -/
def execMulU64 (s : State) : Host.Outcome State Fault Refusal := arith (mulInt (w := 64)) s

/-- `MUL S8` (R83, R84). -/
def execMulS8 (s : State) : Host.Outcome State Fault Refusal := arith (mulInt (w := 8)) s

/-- `MUL S16` (R83, R84). -/
def execMulS16 (s : State) : Host.Outcome State Fault Refusal := arith (mulInt (w := 16)) s

/-- `MUL S32` (R83, R84). -/
def execMulS32 (s : State) : Host.Outcome State Fault Refusal := arith (mulInt (w := 32)) s

/-- `MUL S64` (R83, R84). -/
def execMulS64 (s : State) : Host.Outcome State Fault Refusal := arith (mulInt (w := 64)) s

/-- `MUL F32` (R83, R86). -/
def execMulF32 (s : State) : Host.Outcome State Fault Refusal := arith (fmul Config.binary32 (w := 32)) s

/-- `MUL F64` (R83, R86). -/
def execMulF64 (s : State) : Host.Outcome State Fault Refusal := arith (fmul Config.binary64 (w := 64)) s

end Sys2Proof.Machine
end

