-- ==== Sys2Proof/Machine/Bitwise.lean ====
section
/-! DEFINITION. The width-specific bitwise ANDs (spec/42_bitwise.md R90 to R94). -/

namespace Sys2Proof.Machine

/-- `BW_AND_X8` (R91). -/
def execBwAndX8 (s : State) : Host.Outcome State Fault Refusal := bitAnd 8 s

/-- `BW_AND_X16` (R92). -/
def execBwAndX16 (s : State) : Host.Outcome State Fault Refusal := bitAnd 16 s

/-- `BW_AND_X32` (R93). -/
def execBwAndX32 (s : State) : Host.Outcome State Fault Refusal := bitAnd 32 s

/-- `BW_AND_X64` (R94). -/
def execBwAndX64 (s : State) : Host.Outcome State Fault Refusal := bitAnd 64 s

end Sys2Proof.Machine
end

