-- ==== Sys2Proof/Machine/Compare.lean ====
section
/-! DEFINITION. `CMP_EQ` with each Type (spec/44_compare.md R110 to R112). -/

namespace Sys2Proof.Machine

/-- `CMP_EQ BOOL` (R110, R111). -/
def execCmpEqBool (s : State) : Host.Outcome State Fault Refusal := compare 8 eqBits s

/-- `CMP_EQ U8` (R110, R111). -/
def execCmpEqU8 (s : State) : Host.Outcome State Fault Refusal := compare 8 eqBits s

/-- `CMP_EQ U16` (R110, R111). -/
def execCmpEqU16 (s : State) : Host.Outcome State Fault Refusal := compare 16 eqBits s

/-- `CMP_EQ U32` (R110, R111). -/
def execCmpEqU32 (s : State) : Host.Outcome State Fault Refusal := compare 32 eqBits s

/-- `CMP_EQ U64` (R110, R111). -/
def execCmpEqU64 (s : State) : Host.Outcome State Fault Refusal := compare 64 eqBits s

/-- `CMP_EQ S8` (R110, R111). -/
def execCmpEqS8 (s : State) : Host.Outcome State Fault Refusal := compare 8 eqBits s

/-- `CMP_EQ S16` (R110, R111). -/
def execCmpEqS16 (s : State) : Host.Outcome State Fault Refusal := compare 16 eqBits s

/-- `CMP_EQ S32` (R110, R111). -/
def execCmpEqS32 (s : State) : Host.Outcome State Fault Refusal := compare 32 eqBits s

/-- `CMP_EQ S64` (R110, R111). -/
def execCmpEqS64 (s : State) : Host.Outcome State Fault Refusal := compare 64 eqBits s

/-- `CMP_EQ F32` (R110, R112). -/
def execCmpEqF32 (s : State) : Host.Outcome State Fault Refusal := compare 32 (feq Config.binary32) s

/-- `CMP_EQ F64` (R110, R112). -/
def execCmpEqF64 (s : State) : Host.Outcome State Fault Refusal := compare 64 (feq Config.binary64) s

end Sys2Proof.Machine
end

