-- ==== Sys2Proof/Machine/Control.lean ====
section
/-! DEFINITION. Control transfer (spec/45_control.md R120 to R123). -/

namespace Sys2Proof.Machine

/-- The range check and the target of `JMP`: nothing is added to it (R120). -/
def jumpTo (target : Word16) (s : State) : Except Fault State :=
  if s.plen.toNat ≤ target.toNat then .error .jumpOutOfRange else .ok { s with pc := target }

/-- `JMP` (R120). -/
def execJmp (target : Word16) (s : State) : Host.Outcome State Fault Refusal := s.finish (jumpTo target s)

/-- `EXIT` (R121): `EXITF <- 1`, `STATUS <- Exited`; `PC` keeps the offset of the `EXIT`. -/
def execExit (s : State) : Host.Outcome State Fault Refusal :=
  .next { s.setExitFlag with status := .exited }

end Sys2Proof.Machine
end

