-- ==== Sys2Proof/Machine/Logic.lean ====
section
/-! DEFINITION. Logic AND and OR (spec/43_logic.md R100 to R102). -/

namespace Sys2Proof.Machine

/-- `LOGIC_AND` (R101). -/
def execLogicAnd (s : State) : Host.Outcome State Fault Refusal := logic (fun a b => a && b) s

/-- `LOGIC_OR` (R102); both operands are always popped. -/
def execLogicOr (s : State) : Host.Outcome State Fault Refusal := logic (fun a b => a || b) s

end Sys2Proof.Machine
end

