-- ==== Sys2Proof/Machine/Push.lean ====
section
/-! DEFINITION. The literal pushes (spec/40_literal_push.md R61 to R72). -/

namespace Sys2Proof.Machine

/-- `PUSH_BOOL` (R62). -/
def execPushBool (imm : BitVec 8) (s : State) : Host.Outcome State Fault Refusal :=
  s.finish (pushLiteral imm s)

/-- `PUSH_U8` (R63). -/
def execPushU8 (imm : BitVec 8) (s : State) : Host.Outcome State Fault Refusal :=
  s.finish (pushLiteral imm s)

/-- `PUSH_U16` (R64). -/
def execPushU16 (imm : BitVec 16) (s : State) : Host.Outcome State Fault Refusal :=
  s.finish (pushLiteral imm s)

/-- `PUSH_U32` (R65). -/
def execPushU32 (imm : BitVec 32) (s : State) : Host.Outcome State Fault Refusal :=
  s.finish (pushLiteral imm s)

/-- `PUSH_U64` (R66). -/
def execPushU64 (imm : BitVec 64) (s : State) : Host.Outcome State Fault Refusal :=
  s.finish (pushLiteral imm s)

/-- `PUSH_S8` (R67). -/
def execPushS8 (imm : BitVec 8) (s : State) : Host.Outcome State Fault Refusal :=
  s.finish (pushLiteral imm s)

/-- `PUSH_S16` (R68). -/
def execPushS16 (imm : BitVec 16) (s : State) : Host.Outcome State Fault Refusal :=
  s.finish (pushLiteral imm s)

/-- `PUSH_S32` (R69). -/
def execPushS32 (imm : BitVec 32) (s : State) : Host.Outcome State Fault Refusal :=
  s.finish (pushLiteral imm s)

/-- `PUSH_S64` (R70). -/
def execPushS64 (imm : BitVec 64) (s : State) : Host.Outcome State Fault Refusal :=
  s.finish (pushLiteral imm s)

/-- `PUSH_F32` (R71). -/
def execPushF32 (imm : BitVec 32) (s : State) : Host.Outcome State Fault Refusal :=
  s.finish (pushLiteral imm s)

/-- `PUSH_F64` (R72). -/
def execPushF64 (imm : BitVec 64) (s : State) : Host.Outcome State Fault Refusal :=
  s.finish (pushLiteral imm s)

end Sys2Proof.Machine
end

