-- ==== Sys2Proof/Machine/Dispatch.lean ====
section
/-! DEFINITION. The meaning of each instruction (spec/30_encoding.md R57, `execute`). -/

namespace Sys2Proof.Machine

def exec (i : Instr) (s : State) : Host.Outcome State Fault Refusal :=
  match i with
  | .pushBool imm => Sys2Proof.Machine.execPushBool imm s
  | .pushU8 imm => Sys2Proof.Machine.execPushU8 imm s
  | .pushU16 imm => Sys2Proof.Machine.execPushU16 imm s
  | .pushU32 imm => Sys2Proof.Machine.execPushU32 imm s
  | .pushU64 imm => Sys2Proof.Machine.execPushU64 imm s
  | .pushS8 imm => Sys2Proof.Machine.execPushS8 imm s
  | .pushS16 imm => Sys2Proof.Machine.execPushS16 imm s
  | .pushS32 imm => Sys2Proof.Machine.execPushS32 imm s
  | .pushS64 imm => Sys2Proof.Machine.execPushS64 imm s
  | .pushF32 imm => Sys2Proof.Machine.execPushF32 imm s
  | .pushF64 imm => Sys2Proof.Machine.execPushF64 imm s
  | .addU8 => Sys2Proof.Machine.execAddU8 s
  | .addU16 => Sys2Proof.Machine.execAddU16 s
  | .addU32 => Sys2Proof.Machine.execAddU32 s
  | .addU64 => Sys2Proof.Machine.execAddU64 s
  | .addS8 => Sys2Proof.Machine.execAddS8 s
  | .addS16 => Sys2Proof.Machine.execAddS16 s
  | .addS32 => Sys2Proof.Machine.execAddS32 s
  | .addS64 => Sys2Proof.Machine.execAddS64 s
  | .addF32 => Sys2Proof.Machine.execAddF32 s
  | .addF64 => Sys2Proof.Machine.execAddF64 s
  | .subU8 => Sys2Proof.Machine.execSubU8 s
  | .subU16 => Sys2Proof.Machine.execSubU16 s
  | .subU32 => Sys2Proof.Machine.execSubU32 s
  | .subU64 => Sys2Proof.Machine.execSubU64 s
  | .subS8 => Sys2Proof.Machine.execSubS8 s
  | .subS16 => Sys2Proof.Machine.execSubS16 s
  | .subS32 => Sys2Proof.Machine.execSubS32 s
  | .subS64 => Sys2Proof.Machine.execSubS64 s
  | .subF32 => Sys2Proof.Machine.execSubF32 s
  | .subF64 => Sys2Proof.Machine.execSubF64 s
  | .mulU8 => Sys2Proof.Machine.execMulU8 s
  | .mulU16 => Sys2Proof.Machine.execMulU16 s
  | .mulU32 => Sys2Proof.Machine.execMulU32 s
  | .mulU64 => Sys2Proof.Machine.execMulU64 s
  | .mulS8 => Sys2Proof.Machine.execMulS8 s
  | .mulS16 => Sys2Proof.Machine.execMulS16 s
  | .mulS32 => Sys2Proof.Machine.execMulS32 s
  | .mulS64 => Sys2Proof.Machine.execMulS64 s
  | .mulF32 => Sys2Proof.Machine.execMulF32 s
  | .mulF64 => Sys2Proof.Machine.execMulF64 s
  | .cmpEqBool => Sys2Proof.Machine.execCmpEqBool s
  | .cmpEqU8 => Sys2Proof.Machine.execCmpEqU8 s
  | .cmpEqU16 => Sys2Proof.Machine.execCmpEqU16 s
  | .cmpEqU32 => Sys2Proof.Machine.execCmpEqU32 s
  | .cmpEqU64 => Sys2Proof.Machine.execCmpEqU64 s
  | .cmpEqS8 => Sys2Proof.Machine.execCmpEqS8 s
  | .cmpEqS16 => Sys2Proof.Machine.execCmpEqS16 s
  | .cmpEqS32 => Sys2Proof.Machine.execCmpEqS32 s
  | .cmpEqS64 => Sys2Proof.Machine.execCmpEqS64 s
  | .cmpEqF32 => Sys2Proof.Machine.execCmpEqF32 s
  | .cmpEqF64 => Sys2Proof.Machine.execCmpEqF64 s
  | .bwAndX8 => Sys2Proof.Machine.execBwAndX8 s
  | .bwAndX16 => Sys2Proof.Machine.execBwAndX16 s
  | .bwAndX32 => Sys2Proof.Machine.execBwAndX32 s
  | .bwAndX64 => Sys2Proof.Machine.execBwAndX64 s
  | .logicAnd => Sys2Proof.Machine.execLogicAnd s
  | .logicOr => Sys2Proof.Machine.execLogicOr s
  | .jmp target => Sys2Proof.Machine.execJmp target s
  | .exit => Sys2Proof.Machine.execExit s

end Sys2Proof.Machine
end

