-- ==== Sys2Proof/Machine/Execute.lean ====
section
/-! DEFINITION. The decode-and-dispatch frame (spec/30_encoding.md R57) and the `step` command
(spec/48_host_operations.md R136). -/

namespace Sys2Proof.Machine

/-- `ExecuteOne()` (R57): fetch and decode the instruction at `PC`, take the fault where there is none, else run it. -/
def executeOne (s : State) : Host.Outcome State Fault Refusal :=
  match s.fetchInstr with
  | .ok i => exec i s
  | .error k => .next (s.takeFault k)

/-- `step()`: in a terminal state it holds (R136, D15; log entry 4). The status it returns to the host is the next
state's `STATUS`. -/
def stepCommand (s : State) : Host.Outcome State Fault Refusal :=
  match s.status with
  | .success => executeOne s
  | .exited => .next s
  | .faulted _ => .next s

end Sys2Proof.Machine
end

