-- ==== Sys2Proof/Machine/Step.lean ====
section
/-! DEFINITION. The machine's step (Machine/Execute.lean), and placing an instruction where it is fetched. -/

namespace Sys2Proof.Machine

/-- One `step` of the machine (R136). -/
def step (s : State) : Host.Outcome State Fault Refusal := stepCommand s

/-- `s` with the instruction that a row's number stands for placed at `PC` (log entries 2 and 9): the stand-in for a host
that has appended it. -/
def State.withFetchWord (s : State) (nbits w : Nat) : State := s.placeAtPc (tableBytes nbits w)

end Sys2Proof.Machine
end

