-- ==== Sys2Proof/Laws/Memory.lean ====
section
/-! SUPPORT. The laws of one byte space: read after write, frames, the canonical form, and big-endian values. -/

namespace Sys2Proof

@[simp] theorem toBE_zero (v : Nat) : toBE 0 v = [] := rfl
theorem toBE_succ (n v : Nat) : toBE (n + 1) v = byteOf n v :: toBE n v := rfl

@[simp] theorem toBE_length (n v : Nat) : (toBE n v).length = n := by
  induction n with
  | zero => rfl
  | succ n ih => simp [toBE_succ, ih]

/-- The `k`-th byte of a big-endian value, from the lowest address, is `byte_(n-1-k)`. -/
theorem toBE_getElem (n v k : Nat) (h : k < (toBE n v).length) : (toBE n v)[k] = byteOf (n - 1 - k) v := by
  induction n generalizing k with
  | zero => simp at h
  | succ n ih =>
    cases k with
    | zero => simp [toBE_succ]
    | succ k =>
      have hk : k < (toBE n v).length := by simpa using h
      simp only [toBE_succ, List.getElem_cons_succ, ih k hk]
      congr 1
      omega

/-- Reading on from a value already read. -/
theorem foldl_fromBE (bs : List Byte) (x : Nat) :
    bs.foldl (fun v b => v * 256 + b.toNat) x = x * 256 ^ bs.length + fromBE bs := by
  induction bs generalizing x with
  | nil => simp [fromBE]
  | cons b bs ih =>
    have h0 : fromBE (b :: bs) = bs.foldl (fun v b => v * 256 + b.toNat) (0 * 256 + b.toNat) := rfl
    rw [h0, List.foldl_cons, ih, ih, List.length_cons, pow_succ]
    ring

@[simp] theorem fromBE_nil : fromBE [] = 0 := rfl

theorem fromBE_cons (b : Byte) (bs : List Byte) : fromBE (b :: bs) = b.toNat * 256 ^ bs.length + fromBE bs := by
  have h0 : fromBE (b :: bs) = bs.foldl (fun v b => v * 256 + b.toNat) (0 * 256 + b.toNat) := rfl
  rw [h0, foldl_fromBE, zero_mul, zero_add]

theorem fromBE_lt (bs : List Byte) : fromBE bs < 256 ^ bs.length := by
  induction bs with
  | nil => simp
  | cons b bs ih =>
    have hb := b.isLt
    rw [fromBE_cons, List.length_cons, pow_succ]
    have : b.toNat * 256 ^ bs.length ≤ 255 * 256 ^ bs.length := Nat.mul_le_mul_right _ (by omega)
    omega

/-- Reading back the bytes of a value gives its low `n` bytes. -/
theorem fromBE_toBE (n v : Nat) : fromBE (toBE n v) = v % 256 ^ n := by
  induction n with
  | zero => simp [Nat.mod_one]
  | succ n ih =>
    have h : v % (256 ^ n * 256) = v % 256 ^ n + 256 ^ n * (v / 256 ^ n % 256) := Nat.mod_mul
    rw [toBE_succ, fromBE_cons, ih, toBE_length, pow_succ, h, byteOf, BitVec.toNat_ofNat, mul_comm, add_comm]

/-- The bytes of a number do not depend on what lies above them. -/
theorem toBE_add_mul (n v x : Nat) : toBE n (x * 256 ^ n + v) = toBE n v := by
  induction n generalizing x with
  | zero => rfl
  | succ n ih =>
    have hp : 0 < 256 ^ n := by positivity
    have e : x * 256 ^ (n + 1) + v = x * 256 * 256 ^ n + v := by ring
    rw [toBE_succ, toBE_succ, e, ih]
    congr 1
    apply BitVec.eq_of_toNat_eq
    simp only [byteOf, BitVec.toNat_ofNat]
    rw [Nat.add_comm, Nat.add_mul_div_right _ _ hp]
    omega

/-- Bytes read as a number and written back are the same bytes (R31). -/
theorem toBE_fromBE (bs : List Byte) : toBE bs.length (fromBE bs) = bs := by
  induction bs with
  | nil => rfl
  | cons b bs ih =>
    have hp : 0 < 256 ^ bs.length := by positivity
    rw [List.length_cons, toBE_succ, fromBE_cons, toBE_add_mul, ih, byteOf, Nat.add_comm,
      Nat.add_mul_div_right _ _ hp, Nat.div_eq_of_lt (fromBE_lt bs)]
    simp

/-- A field's bytes are the bytes it was read from (R54). -/
theorem toBE_fieldBE {w : Nat} {bs : List Byte} (h : bs.length * 8 = w) : toBE bs.length (fieldBE w bs).toNat = bs := by
  have hf : (fieldBE w bs).toNat = fromBE bs := by
    rw [fieldBE, BitVec.toNat_ofNat, Nat.mod_eq_of_lt]
    have hl := fromBE_lt bs
    rwa [show (256 : Nat) = 2 ^ 8 from rfl, ← pow_mul, mul_comm 8, h] at hl
  rw [hf, toBE_fromBE]

/-- A pattern read back from the bytes of a value of its own width. -/
theorem fieldBE_toBE {w : Nat} (v : BitVec w) (h : w % 8 = 0) : fieldBE w (toBE (w / 8) v.toNat) = v := by
  have hw : 256 ^ (w / 8) = 2 ^ w := by
    rw [show (256 : Nat) = 2 ^ 8 from rfl, ← pow_mul]
    congr 1
    omega
  rw [fieldBE, fromBE_toBE, hw, Nat.mod_eq_of_lt v.isLt, BitVec.ofNat_toNat, BitVec.setWidth_eq]

namespace Machine

/-! ### Read after write, and the frame of a write -/

theorem readCells_insertCell (a b : Nat) (v : Byte) (cells : List Host.Cell) :
    readCells (insertCell a v cells) b = if a = b then v else readCells cells b := by
  induction cells with
  | nil => by_cases h : a = b <;> simp [insertCell, readCells, h]
  | cons c rest ih =>
    obtain ⟨x, w⟩ := c
    simp only [insertCell]
    split
    · by_cases h : a = b <;> simp [readCells, h]
    · split
      · rename_i h
        subst h
        by_cases h : a = b <;> simp [readCells, h]
      · by_cases hx : x = b
        · have : a ≠ b := by omega
          simp [readCells, hx, this]
        · simp [readCells, hx, ih]

theorem readCells_filter (a b : Nat) (cells : List Host.Cell) :
    readCells (cells.filter (fun c => c.1 ≠ a)) b = if a = b then 0 else readCells cells b := by
  induction cells with
  | nil => simp [readCells]
  | cons c rest ih =>
    obtain ⟨x, w⟩ := c
    by_cases hx : x = a
    · subst hx
      by_cases hb : x = b <;> simp_all [readCells]
    · by_cases hb : x = b
      · subst hb
        simp [readCells, hx, Ne.symm hx]
      · simp_all [readCells]

/-- Reading a byte after writing one: the byte written at its address, every other as before. No condition on the
space: it need not be in canonical form. -/
theorem read_write (m : Memory) (a b : Nat) (v : Byte) :
    (m.write a v).read b = if a = b then v else m.read b := by
  simp only [Memory.read, Memory.write, writeCells]
  split
  · rename_i h
    rw [readCells_filter, h]
  · exact readCells_insertCell a b v m.cells

@[simp] theorem read_zero (a : Nat) : Memory.zero.read a = 0 := rfl

/-- Reading a byte after writing several from `a` on. -/
theorem read_writeBytes (m : Memory) (a b : Nat) (bs : List Byte) :
    (m.writeBytes a bs).read b
      = if h : a ≤ b ∧ b < a + bs.length then bs[b - a]'(by omega) else m.read b := by
  induction bs generalizing m a with
  | nil => simp [Memory.writeBytes]
  | cons v bs ih =>
    rw [Memory.writeBytes, ih]
    by_cases h : a + 1 ≤ b ∧ b < a + 1 + bs.length
    · have h' : a ≤ b ∧ b < a + (bs.length + 1) := by omega
      have : b - a = (b - (a + 1)) + 1 := by omega
      simp [h, h', this]
    · rw [dif_neg h, read_write]
      by_cases hab : a = b
      · subst hab
        simp
      · have h' : ¬ (a ≤ b ∧ b < a + (bs.length + 1)) := by omega
        simp [hab, h']

@[simp] theorem readBytes_length (m : Memory) (a n : Nat) : (m.readBytes a n).length = n := by
  induction n generalizing a with
  | zero => rfl
  | succ n ih => simp [Memory.readBytes, ih]

theorem readBytes_getElem (m : Memory) (a n k : Nat) (h : k < (m.readBytes a n).length) :
    (m.readBytes a n)[k] = m.read (a + k) := by
  induction n generalizing a k with
  | zero => simp at h
  | succ n ih =>
    cases k with
    | zero => simp [Memory.readBytes]
    | succ k =>
      have hk : k < (m.readBytes (a + 1) n).length := by simpa using h
      simp only [Memory.readBytes, List.getElem_cons_succ, ih (a + 1) k hk]
      congr 1
      omega

/-- Bytes read are a given list when they agree byte by byte. -/
theorem readBytes_eq {m : Memory} {a : Nat} {bs : List Byte}
    (h : ∀ k, (hk : k < bs.length) → m.read (a + k) = bs[k]) : m.readBytes a bs.length = bs := by
  refine List.ext_getElem (by simp) fun k h1 h2 => ?_
  rw [readBytes_getElem]
  exact h k h2

/-- Two spaces that agree on `n` bytes give the same bytes. -/
theorem readBytes_congr {m m' : Memory} {a n : Nat} (h : ∀ k, k < n → m.read (a + k) = m'.read (a + k)) :
    m.readBytes a n = m'.readBytes a n := by
  refine List.ext_getElem (by simp) fun k h1 h2 => ?_
  rw [readBytes_getElem, readBytes_getElem]
  exact h k (by simpa using h1)

/-! ### The canonical form -/

theorem wfCells_mono {cap lo lo' : Nat} {cells : List Host.Cell} (h : wfCells cap lo cells) (hl : lo' ≤ lo) :
    wfCells cap lo' cells := by
  cases cells with
  | nil => rfl
  | cons c rest =>
    simp only [wfCells, Bool.and_eq_true, decide_eq_true_eq] at h ⊢
    exact ⟨⟨⟨by omega, h.1.1.2⟩, h.1.2⟩, h.2⟩

theorem wfCells_filter {cap lo a : Nat} {cells : List Host.Cell} (h : wfCells cap lo cells) :
    wfCells cap lo (cells.filter (fun c => c.1 ≠ a)) := by
  induction cells generalizing lo with
  | nil => rfl
  | cons c rest ih =>
    simp only [wfCells, Bool.and_eq_true, decide_eq_true_eq] at h
    obtain ⟨⟨⟨h1, h2⟩, h3⟩, h4⟩ := h
    by_cases hc : c.1 = a
    · have hf : (c :: rest).filter (fun c => c.1 ≠ a) = rest.filter (fun c => c.1 ≠ a) := by simp [hc]
      rw [hf]
      exact wfCells_mono (ih h4) (by omega)
    · have hf : (c :: rest).filter (fun c => c.1 ≠ a) = c :: rest.filter (fun c => c.1 ≠ a) := by simp [hc]
      rw [hf]
      simp only [wfCells, Bool.and_eq_true, decide_eq_true_eq]
      exact ⟨⟨⟨h1, h2⟩, h3⟩, ih h4⟩

theorem wfCells_insertCell {cap lo a : Nat} {v : Byte} {cells : List Host.Cell} (h : wfCells cap lo cells)
    (hl : lo ≤ a) (ha : a < cap) (hv : v ≠ 0) : wfCells cap lo (insertCell a v cells) := by
  induction cells generalizing lo with
  | nil => simpa [insertCell, wfCells, hl, ha] using hv
  | cons c rest ih =>
    obtain ⟨x, w⟩ := c
    simp only [wfCells, Bool.and_eq_true, decide_eq_true_eq] at h
    obtain ⟨⟨⟨h1, h2⟩, h3⟩, h4⟩ := h
    simp only [insertCell]
    split
    · simp only [wfCells, Bool.and_eq_true, decide_eq_true_eq]
      exact ⟨⟨⟨hl, ha⟩, hv⟩, ⟨⟨by omega, h2⟩, h3⟩, h4⟩
    · split
      · rename_i hx
        subst hx
        simp only [wfCells, Bool.and_eq_true, decide_eq_true_eq]
        exact ⟨⟨⟨hl, ha⟩, hv⟩, h4⟩
      · simp only [wfCells, Bool.and_eq_true, decide_eq_true_eq]
        exact ⟨⟨⟨h1, h2⟩, h3⟩, ih h4 (by omega)⟩

/-- A write inside a space keeps its canonical form. -/
theorem wf_write {cap a : Nat} {v : Byte} {m : Memory} (h : m.wf cap) (ha : a < cap) : (m.write a v).wf cap := by
  simp only [Memory.wf, Memory.write, writeCells] at h ⊢
  split
  · exact wfCells_filter h
  · rename_i hv
    exact wfCells_insertCell h (Nat.zero_le a) ha hv

/-- Writing several bytes inside a space keeps its canonical form. -/
theorem wf_writeBytes {cap a : Nat} {bs : List Byte} {m : Memory} (h : m.wf cap) (ha : a + bs.length ≤ cap) :
    (m.writeBytes a bs).wf cap := by
  induction bs generalizing m a with
  | nil => exact h
  | cons b bs ih =>
    simp only [List.length_cons] at ha
    exact ih (wf_write h (by omega)) (by omega)

@[simp] theorem wf_zero (cap : Nat) : Memory.zero.wf cap = true := rfl

end Machine

end Sys2Proof
end

