-- ==== Sys2Proof/Machine/Commands.lean ====
section
/-! DEFINITION. The host's commands, the block's whole external interface (spec/48_host_operations.md R130 to R142).
Each is one atomic transaction on the state (R4). `step` is Machine/Step.lean. -/

namespace Sys2Proof.Machine

/-- What a builder returns to the host: no value of `STATUS` (R142). -/
inductive AppendResult where
  | appended
  | capacityFault
  deriving DecidableEq, Repr

/-- What `read<T>` returns: the top bytes read as their Type (R138). A float is its IEEE datum's pattern. -/
inductive ReadValue where
  | boolean (b : Bool)
  | unsigned (n : Nat)
  | signed (i : Int)
  | binary32 (x : BitVec 32)
  | binary64 (x : BitVec 64)
  deriving DecidableEq, Repr

/-- The commands of section 6 of the source, as R130 to R142 list them. A literal's value is its pattern (R131). `draw`
numbers the calls of `read<T>` (log entry 6); `fuel` bounds `cleanRun` (log entry 10). -/
inductive Command where
  | erase
  | pushBool (v : Bool)
  | pushU8 (v : BitVec 8)
  | pushU16 (v : BitVec 16)
  | pushU32 (v : BitVec 32)
  | pushU64 (v : BitVec 64)
  | pushS8 (v : BitVec 8)
  | pushS16 (v : BitVec 16)
  | pushS32 (v : BitVec 32)
  | pushS64 (v : BitVec 64)
  | pushF32 (v : BitVec 32)
  | pushF64 (v : BitVec 64)
  | push (op : Byte)
  | pushTyped (op : Byte) (t : Ty)
  | pushJmp (target : Word16)
  | getLine
  | finished
  | printOpcodeAt (offset : Nat)
  | opcodeName (op : Byte)
  | statusName (st : Status)
  | step
  | cleanRun (fuel : Nat)
  | read (t : Ty) (draw : Nat)
  | clear
  deriving DecidableEq, Repr

/-- What a command returns. `stillRunning` is a `cleanRun` that its fuel did not bring to an end. -/
inductive Reply where
  | nothing
  | append (r : AppendResult)
  | line (pc : Word16)
  | truth (b : Bool)
  | text (name : Option String)
  | status (st : Status)
  | stillRunning
  | value (v : ReadValue)
  deriving DecidableEq, Repr

/-! ### Program-buffer commands -/

/-- `erase()` (R130): the Program side at its reset values; capacity, stack, `MEM` and `STATUS` untouched. -/
def State.erase (s : State) : State :=
  { s.clearExitFlag with plen := 0, pc := 0, prog := Memory.zero }

/-- `Append(bytes)` (R142): all or nothing. `PLEN` cannot wrap: it ends at most at `PROG_CAP`. -/
def State.append (s : State) (bs : List Byte) : AppendResult × State :=
  if s.params.progCap.toNat < s.plen.toNat + bs.length then (.capacityFault, s)
  else (.appended, { s with
    prog := s.prog.writeBytes s.plen.toNat bs
    plen := s.plen + BitVec.ofNat 16 bs.length })

/-- The bytes a builder appends (R131, R132, R133); no bytes for a command that is no builder. -/
def Command.bytes : Command → List Byte
  | .pushBool v => [0x10, if v then 0x01 else 0x00]
  | .pushU8 v => 0x11 :: toBE 1 v.toNat
  | .pushU16 v => 0x12 :: toBE 2 v.toNat
  | .pushU32 v => 0x13 :: toBE 4 v.toNat
  | .pushU64 v => 0x14 :: toBE 8 v.toNat
  | .pushS8 v => 0x15 :: toBE 1 v.toNat
  | .pushS16 v => 0x16 :: toBE 2 v.toNat
  | .pushS32 v => 0x17 :: toBE 4 v.toNat
  | .pushS64 v => 0x18 :: toBE 8 v.toNat
  | .pushF32 v => 0x19 :: toBE 4 v.toNat
  | .pushF64 v => 0x1A :: toBE 8 v.toNat
  | .push op => [op]
  | .pushTyped op t => [op, t.id]
  | .pushJmp target => 0x60 :: toBE 2 target.toNat
  | .erase | .getLine | .finished | .printOpcodeAt _ | .opcodeName _ | .statusName _ | .step | .cleanRun _
  | .read _ _ | .clear => []

/-- `getLine()` (R134). -/
def State.getLine (s : State) : Word16 := s.pc

/-- `finished()` (R135). -/
def State.finished (s : State) : Bool := decide (s.plen.toNat ≤ s.pc.toNat) || s.exitf

/-! ### Name lookups (R141; log entry 14) -/

/-- The name of an opcode byte: the mnemonic of R51. -/
def opcodeNameOf (op : Byte) : Option String := (opcodeRow op).map (fun r => r.name)

/-- The name of a fault (R18). -/
def Fault.name : Fault → String
  | .stackOverflow => "StackOverflow"
  | .stackUnderflow => "StackUnderflow"
  | .invalidOpcode => "InvalidOpcode"
  | .jumpOutOfRange => "JumpOutOfRange"
  | .memoryOutOfRange => "MemoryOutOfRange"
  | .fetchOutOfRange => "FetchOutOfRange"

/-- The name of a status (R18). -/
def Status.name : Status → String
  | .success => "Success"
  | .exited => "Exited"
  | .faulted k => k.name

/-- `printOpcodeAt(offset)`: the name of the program byte there; none past the program or for an invalid opcode. -/
def State.opcodeAt (s : State) (offset : Nat) : Option String :=
  match s.fetch offset with
  | .ok op => opcodeNameOf op
  | .error _ => none

/-! ### Engine commands -/

/-- The state after one step; every step answers a next state (R150, R158). -/
def State.stepped (s : State) : State :=
  match Sys2Proof.Machine.step s with
  | .next t => t
  | .fault _ => s
  | .refused _ => s

/-- `cleanRun()` (R137): `step` until the status is not Success, at most `fuel` times (log entry 10); none where it has
not ended. -/
def State.cleanRun : Nat → State → Option Status × State
  | 0, s => (none, s)
  | fuel + 1, s =>
    if s.stepped.status = .success then State.cleanRun fuel s.stepped
    else (some s.stepped.status, s.stepped)

/-- A number read as a Type (R138): unsigned, two's complement, the IEEE datum, or a truth value. -/
def readAs (t : Ty) (n : Nat) : ReadValue :=
  match t with
  | .bool => .boolean (Sys2Proof.Machine.truth (BitVec.ofNat 8 n))
  | .u8 | .u16 | .u32 | .u64 => .unsigned n
  | .s8 => .signed (BitVec.ofNat 8 n).toInt
  | .s16 => .signed (BitVec.ofNat 16 n).toInt
  | .s32 => .signed (BitVec.ofNat 32 n).toInt
  | .s64 => .signed (BitVec.ofNat 64 n).toInt
  | .f32 => .binary32 (BitVec.ofNat 32 n)
  | .f64 => .binary64 (BitVec.ofNat 64 n)

/-- `read<T>()` (R138): the top `width(T)` bytes as `T`. With fewer on the stack the value is unspecified: some value of
the Type (D22, U6; log entry 6). -/
def State.readTop (s : State) (t : Ty) (draw : Nat) : ReadValue :=
  if s.sp.toNat < t.width then readAs t (Config.unspecifiedRead t.width draw % 256 ^ t.width)
  else readAs t (fromBE (s.topBytes t.width))

/-- `clear()` (R139): the Engine side at its reset values; the Program side untouched. -/
def State.clear (s : State) : State :=
  { s with sp := 0, stack := Memory.zero, mem := Memory.zero, status := .success }

/-- Running one command. A builder is `Append` of its bytes (R131 to R133); the queries change nothing. -/
def Command.run (c : Command) (s : State) : Reply × State :=
  match c with
  | .pushBool _ | .pushU8 _ | .pushU16 _ | .pushU32 _ | .pushU64 _ | .pushS8 _ | .pushS16 _ | .pushS32 _
  | .pushS64 _ | .pushF32 _ | .pushF64 _ | .push _ | .pushTyped _ _ | .pushJmp _ =>
    (.append (s.append c.bytes).1, (s.append c.bytes).2)
  | .erase => (.nothing, s.erase)
  | .clear => (.nothing, s.clear)
  | .step => (.status s.stepped.status, s.stepped)
  | .cleanRun fuel => ((s.cleanRun fuel).1.elim .stillRunning Reply.status, (s.cleanRun fuel).2)
  | .getLine => (.line s.getLine, s)
  | .finished => (.truth s.finished, s)
  | .printOpcodeAt offset => (.text (s.opcodeAt offset), s)
  | .opcodeName op => (.text (opcodeNameOf op), s)
  | .statusName st => (.text (some st.name), s)
  | .read t draw => (.value (s.readTop t draw), s)

end Sys2Proof.Machine
end

