-- ==== Sys2Proof/Laws/State.lean ====
section
/-! SUPPORT. One lemma per field per update of the state, each true by rfl, and the outcome of an instruction's end. -/

namespace Sys2Proof.Machine

/-! ### Taking a fault (R158) -/

@[simp] theorem takeFault_params (s : State) (k : Fault) : (s.takeFault k).params = s.params := rfl
@[simp] theorem takeFault_prog (s : State) (k : Fault) : (s.takeFault k).prog = s.prog := rfl
@[simp] theorem takeFault_plen (s : State) (k : Fault) : (s.takeFault k).plen = s.plen := rfl
@[simp] theorem takeFault_pc (s : State) (k : Fault) : (s.takeFault k).pc = s.pc := rfl
@[simp] theorem takeFault_exitf (s : State) (k : Fault) : (s.takeFault k).exitf = s.exitf := rfl
@[simp] theorem takeFault_stack (s : State) (k : Fault) : (s.takeFault k).stack = s.stack := rfl
@[simp] theorem takeFault_sp (s : State) (k : Fault) : (s.takeFault k).sp = s.sp := rfl
@[simp] theorem takeFault_mem (s : State) (k : Fault) : (s.takeFault k).mem = s.mem := rfl
@[simp] theorem takeFault_status (s : State) (k : Fault) : (s.takeFault k).status = .faulted k := rfl

/-! ### Sequential advance (R123) -/

@[simp] theorem advance_params (s : State) (n : Nat) : (s.advance n).params = s.params := rfl
@[simp] theorem advance_prog (s : State) (n : Nat) : (s.advance n).prog = s.prog := rfl
@[simp] theorem advance_plen (s : State) (n : Nat) : (s.advance n).plen = s.plen := rfl
@[simp] theorem advance_pc (s : State) (n : Nat) : (s.advance n).pc = s.pc + BitVec.ofNat 16 n := rfl
@[simp] theorem advance_exitf (s : State) (n : Nat) : (s.advance n).exitf = s.exitf := rfl
@[simp] theorem advance_stack (s : State) (n : Nat) : (s.advance n).stack = s.stack := rfl
@[simp] theorem advance_sp (s : State) (n : Nat) : (s.advance n).sp = s.sp := rfl
@[simp] theorem advance_mem (s : State) (n : Nat) : (s.advance n).mem = s.mem := rfl
@[simp] theorem advance_status (s : State) (n : Nat) : (s.advance n).status = s.status := rfl

/-! ### The exit flag (R121, R130) -/

@[simp] theorem setExitFlag_exitf (s : State) : s.setExitFlag.exitf = true := rfl
@[simp] theorem setExitFlag_params (s : State) : s.setExitFlag.params = s.params := rfl
@[simp] theorem setExitFlag_prog (s : State) : s.setExitFlag.prog = s.prog := rfl
@[simp] theorem setExitFlag_plen (s : State) : s.setExitFlag.plen = s.plen := rfl
@[simp] theorem setExitFlag_pc (s : State) : s.setExitFlag.pc = s.pc := rfl
@[simp] theorem setExitFlag_stack (s : State) : s.setExitFlag.stack = s.stack := rfl
@[simp] theorem setExitFlag_sp (s : State) : s.setExitFlag.sp = s.sp := rfl
@[simp] theorem setExitFlag_mem (s : State) : s.setExitFlag.mem = s.mem := rfl
@[simp] theorem setExitFlag_status (s : State) : s.setExitFlag.status = s.status := rfl
@[simp] theorem clearExitFlag_exitf (s : State) : s.clearExitFlag.exitf = false := rfl
@[simp] theorem clearExitFlag_params (s : State) : s.clearExitFlag.params = s.params := rfl
@[simp] theorem clearExitFlag_prog (s : State) : s.clearExitFlag.prog = s.prog := rfl
@[simp] theorem clearExitFlag_plen (s : State) : s.clearExitFlag.plen = s.plen := rfl
@[simp] theorem clearExitFlag_pc (s : State) : s.clearExitFlag.pc = s.pc := rfl
@[simp] theorem clearExitFlag_stack (s : State) : s.clearExitFlag.stack = s.stack := rfl
@[simp] theorem clearExitFlag_sp (s : State) : s.clearExitFlag.sp = s.sp := rfl
@[simp] theorem clearExitFlag_mem (s : State) : s.clearExitFlag.mem = s.mem := rfl
@[simp] theorem clearExitFlag_status (s : State) : s.clearExitFlag.status = s.status := rfl

/-! ### The end of an instruction (R57) -/

@[simp] theorem finish_ok (s t : State) : s.finish (.ok t) = .next { t with status := .success } := rfl
@[simp] theorem finish_error (s : State) (k : Fault) : s.finish (.error k) = .next (s.takeFault k) := rfl

/-- An instruction's end is a completed state or the fault it raised, and always a next state. -/
theorem finish_cases {s u : State} {r : Except Fault State} (h : s.finish r = .next u) :
    (∃ t, r = .ok t ∧ u = { t with status := .success }) ∨ (∃ k, r = .error k ∧ u = s.takeFault k) := by
  cases r with
  | ok t => exact .inl ⟨t, rfl, by simpa using h.symm⟩
  | error k => exact .inr ⟨k, rfl, by simpa using h.symm⟩

end Sys2Proof.Machine
end

