-- ==== Sys2Proof/Safety.lean ====
section
/-! DEFINITION. What counts as a safe state and a right step, in the terms the statements use: the machine's
invariant, which fault a step reports (spec/60_exceptions.md R157), what an instruction's rule asks of its result and
leaves unchanged, and correct rounding of a float result (spec/41_arithmetic.md R86). Written from the spec's
rules by address, byte and value, not from the operations of Machine/. -/

namespace Sys2Proof.Machine

/-! ### The invariant -/

/-- The invariants of R2, R10, R12, R14 and R155, and the canonical form of the three spaces. -/
def State.wf (s : State) : Bool :=
  s.params.wf
    && decide (s.plen.toNat ≤ s.params.progCap.toNat)
    && decide (s.pc.toNat ≤ s.plen.toNat)
    && decide (s.sp.toNat ≤ s.params.stackCap.toNat)
    && s.prog.wf s.params.progCap.toNat
    && s.stack.wf s.params.stackCap.toNat
    && s.mem.wf s.params.memSize.toNat
    && decide (s.status ≠ .faulted .memoryOutOfRange)

/-! ### Bytes of a space -/

/-- The `n` bytes from `a` on are the `n`-byte value `v`, most significant at the lowest address (R14, R31). -/
def HoldsBE (m : Memory) (a n v : Nat) : Prop := ∀ k, k < n → m.read (a + k) = byteOf (n - 1 - k) v

/-- Every byte reads as before. -/
def SameBytes (m m' : Memory) : Prop := ∀ a, m'.read a = m.read a

/-- Every byte but the `n` from `a` on reads as before. -/
def SameOutside (m m' : Memory) (a n : Nat) : Prop := ∀ b, b < a ∨ a + n ≤ b → m'.read b = m.read b

/-- The bytes `bs` are the next of the program, all below `PLEN`, and the machine is not in a terminal state. -/
def AtPc (s : State) (bs : List Byte) : Prop :=
  s.status = .success ∧ s.pc.toNat + bs.length ≤ s.plen.toNat
    ∧ ∀ k, (h : k < bs.length) → s.prog.read (s.pc.toNat + k) = bs[k]

/-- A step may run, the opcode byte at `PC` is `op`, and its instruction of `len` bytes reaches past `PLEN`. -/
def CutShort (s : State) (op : Byte) (len : Nat) : Prop :=
  s.status = .success ∧ s.pc.toNat < s.plen.toNat ∧ s.prog.read s.pc.toNat = op
    ∧ s.plen.toNat < s.pc.toNat + len

/-! ### What an instruction's rule asks -/

/-- What every instruction but `EXIT` leaves as it was: the capacities, `PLEN`, `EXITF`, and every byte of `PROG` and `MEM`. -/
def OthersKept (s t : State) : Prop :=
  t.params = s.params ∧ t.plen = s.plen ∧ t.exitf = s.exitf ∧ SameBytes s.prog t.prog ∧ SameBytes s.mem t.mem

/-- The state `t` after an instruction that began in `s`, left `n` bytes holding `v` on top of the `base` lowest bytes of
the stack, and has `len` bytes: `SP`, the stack byte by byte, `PC`, `STATUS`, and the rest unchanged. -/
def LeavesValue (s t : State) (base n v len : Nat) : Prop :=
  t.sp.toNat = base + n ∧ HoldsBE t.stack base n v ∧ SameOutside s.stack t.stack base n
    ∧ t.pc = s.pc + BitVec.ofNat 16 len ∧ t.status = .success ∧ OthersKept s t

/-- The rule of a literal push (R61) of the `n`-byte literal `v`, for the instruction `i` and its bytes `op :: lit`:
cut short by the end of the program it faults; a step with the bytes at `PC` runs it; it overflows exactly when the literal
does not fit; else it pushes the literal. -/
def LiteralPushRule (i : Instr) (op : Byte) (lit : List Byte) (n v : Nat) : Prop :=
  (∀ s, CutShort s op (1 + n) → step s = .next { s with status := .faulted .fetchOutOfRange })
  ∧ (∀ s, AtPc s (op :: lit) → step s = exec i s)
  ∧ (∀ s : State, s.params.stackCap.toNat < s.sp.toNat + n →
      exec i s = .next { s with status := .faulted .stackOverflow })
  ∧ (∀ s : State, s.sp.toNat + n ≤ s.params.stackCap.toNat →
      ∃ t, exec i s = .next t ∧ LeavesValue s t s.sp.toNat n v (1 + n))

/-- The rule of an instruction `i` of bytes `bs` that replaces its two `w`-bit operands, the left-hand `a` beneath the
right-hand `b`, by the `r`-bit value `f a b` (R80, R90, R101, R102, R110): a step with the bytes at `PC` runs it; with
too few bytes on the stack it underflows; else it leaves the value. -/
def BinaryRule (i : Instr) (bs : List Byte) {w r : Nat} (f : BitVec w → BitVec w → BitVec r) : Prop :=
  (∀ s, AtPc s bs → step s = exec i s)
  ∧ (∀ s : State, s.sp.toNat < 2 * (w / 8) → exec i s = .next { s with status := .faulted .stackUnderflow })
  ∧ (∀ (s : State) (a b : BitVec w), 2 * (w / 8) ≤ s.sp.toNat → s.sp.toNat ≤ s.params.stackCap.toNat →
      HoldsBE s.stack (s.sp.toNat - 2 * (w / 8)) (w / 8) a.toNat →
      HoldsBE s.stack (s.sp.toNat - w / 8) (w / 8) b.toNat →
      ∃ t, exec i s = .next t
        ∧ LeavesValue s t (s.sp.toNat - 2 * (w / 8)) (r / 8) (f a b).toNat bs.length)

/-! ### Faults -/

/-- The bytes an instruction pops (R51, R151), from its opcode byte and Type byte. -/
def poppedBytes (op t : Byte) : Nat :=
  let n := op.toNat
  if (0x20 ≤ n ∧ n ≤ 0x22) ∨ n = 0x50 then
    (if t.toNat ≤ 1 ∨ t.toNat = 5 then 2
     else if t.toNat = 2 ∨ t.toNat = 6 then 4
     else if t.toNat = 3 ∨ t.toNat = 7 ∨ t.toNat = 9 then 8
     else 16)
  else if n = 0x30 ∨ n = 0x40 ∨ n = 0x41 then 2
  else if n = 0x31 then 4
  else if n = 0x32 then 8
  else if n = 0x33 then 16
  else 0

/-- The fault that a step reports in a state that is not terminal: the first met in the order of R157, none where the
instruction completes. `n` is the payload's length. -/
def firstFault (s : State) : Option Fault :=
  let op := s.prog.read s.pc.toNat
  let t := s.prog.read (s.pc.toNat + 1)
  let target := t.toNat * 256 + (s.prog.read (s.pc.toNat + 2)).toNat
  if s.plen.toNat ≤ s.pc.toNat then some .fetchOutOfRange
  else match payloadLength op with
    | none => some .invalidOpcode
    | some n =>
      if s.plen.toNat < s.pc.toNat + 1 + n then some .fetchOutOfRange
      else if typeByteOk op t = false then some .invalidOpcode
      else if s.sp.toNat < poppedBytes op t then some .stackUnderflow
      else if op.toNat < 0x20 ∧ s.params.stackCap.toNat < s.sp.toNat + n then some .stackOverflow
      else if op = 0x60 ∧ s.plen.toNat ≤ target then some .jumpOutOfRange
      else none

/-! ### What can be observed -/

/-- Agreement on all that an instruction or a command other than a look at raw bytes can tell (R11, R14, R17, U11): every
register and status, the program below `PLEN`, the stack below `SP`. -/
def SameObserved (s t : State) : Prop :=
  t.params = s.params ∧ t.plen = s.plen ∧ t.pc = s.pc ∧ t.exitf = s.exitf ∧ t.sp = s.sp ∧ t.status = s.status
    ∧ (∀ a, a < s.plen.toNat → t.prog.read a = s.prog.read a)
    ∧ (∀ a, a < s.sp.toNat → t.stack.read a = s.stack.read a)

/-! ### Runs -/

/-- `n` steps issued one after another, as the host's own run of the machine does. -/
def runSteps : Nat → State → Host.Outcome State Fault Refusal
  | 0, s => .next s
  | n + 1, s =>
    match step s with
    | .next t => runSteps n t
    | .fault k => .fault k
    | .refused r => .refused r

/-! ### Replies -/

/-- What a builder that appends `bs` answers: the result and the state of `Append` (R131 to R133, R142). -/
def appendReply (s : State) (bs : List Byte) : Reply × State := (.append (s.append bs).1, (s.append bs).2)

/-! ### Float values (R86; IEEE 754 as G1 and G3 take it) -/

/-- The value of a magnitude pattern: `2 ^ (e - bias) * (1 + f / 2 ^ fracBits)`, and `2 ^ (1 - bias) * f / 2 ^ fracBits` where
the exponent field `e` is 0. On the pattern of infinity it gives the power of two that a next binade would begin with. -/
def floatValue (F : FloatFormat) (m : Nat) : ℚ :=
  let e := m / 2 ^ F.fracBits
  let f := m % 2 ^ F.fracBits
  let bias : ℤ := 2 ^ (F.expBits - 1) - 1
  if e = 0 then (2 : ℚ) ^ (1 - bias) * (f / 2 ^ F.fracBits)
  else (2 : ℚ) ^ ((e : ℤ) - bias) * (1 + f / 2 ^ F.fracBits)

/-- The value of a finite pattern, with its sign. -/
def signedValue (F : FloatFormat) (p : Nat) : ℚ :=
  if isNeg F p then -floatValue F (magOf F p) else floatValue F (magOf F p)

/-- `p` is the correctly rounded result of the exact value `x`, roundTiesToEven (R86 point 1, D20): no magnitude up to that
of infinity, counted as the next power of two, is nearer to `|x|`, one as near is a tie that the even pattern wins, and the
sign is that of `x` where `x` is not zero. -/
def CorrectlyRounded (F : FloatFormat) (x : ℚ) (p : Nat) : Prop :=
  magOf F p ≤ infMag F
    ∧ (0 < x → isNeg F p = false) ∧ (x < 0 → isNeg F p = true)
    ∧ ∀ z, z ≤ infMag F →
        |(|x| - floatValue F (magOf F p))| ≤ |(|x| - floatValue F z)|
          ∧ (|(|x| - floatValue F (magOf F p))| = |(|x| - floatValue F z)| → z = magOf F p ∨ magOf F p % 2 = 0)

/-- A finite pattern: neither an infinity nor a NaN. -/
def IsFinite (F : FloatFormat) (p : Nat) : Prop := magOf F p < infMag F

end Sys2Proof.Machine
end

