-- ==== Sys2Proof/Laws/Stack.lean ====
section
/-! SUPPORT. What the operations of the operand stack can do, once each: `Push`, `Pop`, the literal push and the binary
operator (spec/10_state.md R14 to R16). -/

namespace Sys2Proof.Machine

/-! ### Bytes and values -/

/-- Bytes that hold a value of a width that is whole bytes read back as it. -/
theorem fieldBE_of_holds {m : Memory} {a w : Nat} {v : BitVec w} (hw : w % 8 = 0) (h : HoldsBE m a (w / 8) v.toNat) :
    fieldBE w (m.readBytes a (w / 8)) = v := by
  have hb : m.readBytes a (w / 8) = toBE (w / 8) v.toNat := by
    refine List.ext_getElem (by simp) fun k h1 h2 => ?_
    rw [readBytes_getElem, toBE_getElem]
    exact h k (by simpa using h1)
  rw [hb, fieldBE_toBE v hw]

/-- The top of the stack is the value its bytes hold (R16). -/
theorem top_of_holds {s : State} {w : Nat} {v : BitVec w} (hw : w % 8 = 0)
    (h : HoldsBE s.stack (s.sp.toNat - w / 8) (w / 8) v.toNat) : s.top w = v :=
  fieldBE_of_holds hw h

/-- Writing a value's bytes makes a space hold it. -/
theorem holds_writeBytes (m : Memory) (a n v : Nat) : HoldsBE (m.writeBytes a (toBE n v)) a n v := by
  intro k hk
  rw [read_writeBytes, dif_pos (by simp; omega), toBE_getElem]
  congr 1
  omega

/-- Writing a value's bytes leaves every other byte alone. -/
theorem outside_writeBytes (m : Memory) (a n v : Nat) : SameOutside m (m.writeBytes a (toBE n v)) a n := by
  intro b hb
  rw [read_writeBytes, dif_neg (by simp; omega)]

/-! ### Push and Pop -/

/-- The state after a push that fits (R15). -/
def State.pushed (s : State) {w : Nat} (v : BitVec w) : State :=
  { s with stack := s.stack.writeBytes s.sp.toNat (toBE (w / 8) v.toNat), sp := s.sp + BitVec.ofNat 16 (w / 8) }

theorem push_fits {s : State} {w : Nat} {v : BitVec w} (h : s.sp.toNat + w / 8 ≤ s.params.stackCap.toNat) :
    s.push v = .ok (s.pushed v) := by
  rw [State.push, if_neg (by omega)]
  rfl

theorem push_overflows {s : State} {w : Nat} {v : BitVec w} (h : s.params.stackCap.toNat < s.sp.toNat + w / 8) :
    s.push v = .error .stackOverflow := if_pos h

/-- All that a push can do. -/
theorem push_cases (s : State) {w : Nat} (v : BitVec w) :
    (s.params.stackCap.toNat < s.sp.toNat + w / 8 ∧ s.push v = .error .stackOverflow) ∨
    (s.sp.toNat + w / 8 ≤ s.params.stackCap.toNat ∧ s.push v = .ok (s.pushed v)) := by
  by_cases h : s.params.stackCap.toNat < s.sp.toNat + w / 8
  · exact .inl ⟨h, push_overflows h⟩
  · exact .inr ⟨by omega, push_fits (by omega)⟩

@[simp] theorem pushed_params (s : State) {w : Nat} (v : BitVec w) : (s.pushed v).params = s.params := rfl
@[simp] theorem pushed_prog (s : State) {w : Nat} (v : BitVec w) : (s.pushed v).prog = s.prog := rfl
@[simp] theorem pushed_plen (s : State) {w : Nat} (v : BitVec w) : (s.pushed v).plen = s.plen := rfl
@[simp] theorem pushed_pc (s : State) {w : Nat} (v : BitVec w) : (s.pushed v).pc = s.pc := rfl
@[simp] theorem pushed_exitf (s : State) {w : Nat} (v : BitVec w) : (s.pushed v).exitf = s.exitf := rfl
@[simp] theorem pushed_mem (s : State) {w : Nat} (v : BitVec w) : (s.pushed v).mem = s.mem := rfl
@[simp] theorem pushed_status (s : State) {w : Nat} (v : BitVec w) : (s.pushed v).status = s.status := rfl
@[simp] theorem pushed_stack (s : State) {w : Nat} (v : BitVec w) :
    (s.pushed v).stack = s.stack.writeBytes s.sp.toNat (toBE (w / 8) v.toNat) := rfl

/-- `SP` after a push that fits: it does not wrap, because the capacity has 16 bits (R15). -/
theorem pushed_sp_toNat {s : State} {w : Nat} {v : BitVec w}
    (h : s.sp.toNat + w / 8 ≤ s.params.stackCap.toNat) : (s.pushed v).sp.toNat = s.sp.toNat + w / 8 := by
  have hc := s.params.stackCap.isLt
  simp only [State.pushed, BitVec.toNat_add, BitVec.toNat_ofNat]
  omega

theorem pop_has {s : State} {w : Nat} (h : w / 8 ≤ s.sp.toNat) :
    s.pop w = .ok (s.top w, { s with sp := s.sp - BitVec.ofNat 16 (w / 8) }) := if_neg (by omega)

theorem pop_underflows {s : State} {w : Nat} (h : s.sp.toNat < w / 8) : s.pop w = .error .stackUnderflow := if_pos h

/-- `SP` after a pop: it does not wrap below 0 (R16). -/
theorem sp_sub_toNat {sp : Word16} {n : Nat} (h : n ≤ sp.toNat) : (sp - BitVec.ofNat 16 n).toNat = sp.toNat - n := by
  have hc := sp.isLt
  simp only [BitVec.toNat_sub, BitVec.toNat_ofNat]
  omega

/-! ### The literal push (R61) -/

theorem pushLiteral_fits {s : State} {w : Nat} {v : BitVec w} (h : s.sp.toNat + w / 8 ≤ s.params.stackCap.toNat) :
    pushLiteral v s = .ok ((s.pushed v).advance (1 + w / 8)) := by
  rw [pushLiteral, push_fits h]
  rfl

theorem pushLiteral_overflows {s : State} {w : Nat} {v : BitVec w}
    (h : s.params.stackCap.toNat < s.sp.toNat + w / 8) : pushLiteral v s = .error .stackOverflow := by
  rw [pushLiteral, push_overflows h]
  rfl

/-- All that a literal push can do. -/
theorem pushLiteral_cases (s : State) {w : Nat} (v : BitVec w) :
    (s.params.stackCap.toNat < s.sp.toNat + w / 8 ∧ pushLiteral v s = .error .stackOverflow) ∨
    (s.sp.toNat + w / 8 ≤ s.params.stackCap.toNat ∧
      pushLiteral v s = .ok ((s.pushed v).advance (1 + w / 8))) := by
  by_cases h : s.params.stackCap.toNat < s.sp.toNat + w / 8
  · exact .inl ⟨h, pushLiteral_overflows h⟩
  · exact .inr ⟨by omega, pushLiteral_fits (by omega)⟩

/-! ### The binary operator (R80, R90, R101, R102, R110) -/

/-- The state with both operands popped: only `SP` differs (R14). -/
def State.popped (s : State) (w : Nat) : State :=
  { s with sp := s.sp - BitVec.ofNat 16 (w / 8) - BitVec.ofNat 16 (w / 8) }

@[simp] theorem popped_params (s : State) (w : Nat) : (s.popped w).params = s.params := rfl
@[simp] theorem popped_prog (s : State) (w : Nat) : (s.popped w).prog = s.prog := rfl
@[simp] theorem popped_plen (s : State) (w : Nat) : (s.popped w).plen = s.plen := rfl
@[simp] theorem popped_pc (s : State) (w : Nat) : (s.popped w).pc = s.pc := rfl
@[simp] theorem popped_exitf (s : State) (w : Nat) : (s.popped w).exitf = s.exitf := rfl
@[simp] theorem popped_stack (s : State) (w : Nat) : (s.popped w).stack = s.stack := rfl
@[simp] theorem popped_mem (s : State) (w : Nat) : (s.popped w).mem = s.mem := rfl
@[simp] theorem popped_status (s : State) (w : Nat) : (s.popped w).status = s.status := rfl

theorem popped_sp_toNat {s : State} {w : Nat} (h : 2 * (w / 8) ≤ s.sp.toNat) :
    (s.popped w).sp.toNat = s.sp.toNat - 2 * (w / 8) := by
  have h1 : (s.sp - BitVec.ofNat 16 (w / 8)).toNat = s.sp.toNat - w / 8 := sp_sub_toNat (by omega)
  have h2 := sp_sub_toNat (sp := s.sp - BitVec.ofNat 16 (w / 8)) (n := w / 8) (by omega)
  simp only [State.popped]
  omega

/-- The left-hand operand: the value beneath the top one (R80). -/
def State.left (s : State) (w : Nat) : BitVec w :=
  fieldBE w (s.stack.readBytes (s.sp.toNat - 2 * (w / 8)) (w / 8))

theorem left_of_holds {s : State} {w : Nat} {v : BitVec w} (hw : w % 8 = 0)
    (h : HoldsBE s.stack (s.sp.toNat - 2 * (w / 8)) (w / 8) v.toNat) : s.left w = v :=
  fieldBE_of_holds hw h

theorem binary_underflows {w r : Nat} {len : Nat} {f : BitVec w → BitVec w → BitVec r} {s : State}
    (h : s.sp.toNat < 2 * (w / 8)) : binary len f s = .error .stackUnderflow := by
  simp only [binary, State.need, if_pos h]
  rfl

/-- With its operands there, the operator is a push of its result on the popped stack. -/
theorem binary_has {w r : Nat} {len : Nat} {f : BitVec w → BitVec w → BitVec r} {s : State}
    (h : 2 * (w / 8) ≤ s.sp.toNat) :
    binary len f s = (do
      let t ← (s.popped w).push (f (s.left w) (s.top w))
      return t.advance len) := by
  have h1 : (s.sp - BitVec.ofNat 16 (w / 8)).toNat = s.sp.toNat - w / 8 := sp_sub_toNat (by omega)
  have hl : (State.top { s with sp := s.sp - BitVec.ofNat 16 (w / 8) } w) = s.left w := by
    simp only [State.top, State.topBytes, State.left, h1]
    congr 2
    omega
  have hp : State.pop { s with sp := s.sp - BitVec.ofNat 16 (w / 8) } w
      = .ok (s.left w, s.popped w) := by
    rw [pop_has (by simp only [h1]; omega), hl]
    rfl
  simp only [binary, State.need, if_neg (show ¬ s.sp.toNat < 2 * (w / 8) by omega),
    pop_has (show w / 8 ≤ s.sp.toNat by omega), bind, Except.bind, hp]

/-- With its operands there and `SP` within the capacity, a result no wider than both operands always fits (R80). -/
theorem binary_completes {w r : Nat} {len : Nat} {f : BitVec w → BitVec w → BitVec r} {s : State}
    (h : 2 * (w / 8) ≤ s.sp.toNat) (hc : s.sp.toNat ≤ s.params.stackCap.toNat) (hr : r / 8 ≤ 2 * (w / 8)) :
    binary len f s = .ok (((s.popped w).pushed (f (s.left w) (s.top w))).advance len) := by
  have hp := popped_sp_toNat h
  rw [binary_has h, push_fits (by simp only [hp, popped_params]; omega)]
  rfl

/-- All that the operator can do in any state; the overflow happens only where `SP` is above the capacity. -/
theorem binary_cases {w r : Nat} (len : Nat) (f : BitVec w → BitVec w → BitVec r) (s : State) (hr : r / 8 ≤ 2 * (w / 8)) :
    (s.sp.toNat < 2 * (w / 8) ∧ binary len f s = .error .stackUnderflow) ∨
    (2 * (w / 8) ≤ s.sp.toNat ∧ s.params.stackCap.toNat < s.sp.toNat ∧ binary len f s = .error .stackOverflow) ∨
    (2 * (w / 8) ≤ s.sp.toNat ∧ s.sp.toNat - 2 * (w / 8) + r / 8 ≤ s.params.stackCap.toNat ∧
      binary len f s = .ok (((s.popped w).pushed (f (s.left w) (s.top w))).advance len)) := by
  by_cases h : s.sp.toNat < 2 * (w / 8)
  · exact .inl ⟨h, binary_underflows h⟩
  · have h' : 2 * (w / 8) ≤ s.sp.toNat := by omega
    have hp := popped_sp_toNat h'
    rcases push_cases (s.popped w) (f (s.left w) (s.top w)) with ⟨ho, he⟩ | ⟨ho, he⟩
    · simp only [hp, popped_params] at ho
      refine .inr (.inl ⟨h', by omega, ?_⟩)
      rw [binary_has h', he]
      rfl
    · simp only [hp, popped_params] at ho
      refine .inr (.inr ⟨h', ho, ?_⟩)
      rw [binary_has h', he]
      rfl

/-- What a completed push on a popped stack leaves, byte by byte. -/
theorem leavesValue_of_pushed {s u : State} {w : Nat} (v : BitVec w) (len : Nat)
    (hp : u.params = s.params) (hg : u.prog = s.prog) (hl : u.plen = s.plen) (hpc : u.pc = s.pc)
    (he : u.exitf = s.exitf) (hs : u.stack = s.stack) (hm : u.mem = s.mem)
    (hfit : u.sp.toNat + w / 8 ≤ u.params.stackCap.toNat) :
    LeavesValue s { (u.pushed v).advance len with status := .success } u.sp.toNat (w / 8) v.toNat len := by
  refine ⟨?_, ?_, ?_, ?_, rfl, hp, hl, he, ?_, ?_⟩
  · exact pushed_sp_toNat (v := v) hfit
  · exact holds_writeBytes _ _ _ _
  · simpa [hs] using outside_writeBytes u.stack u.sp.toNat (w / 8) v.toNat
  · simp [hpc]
  · intro a
    simp [hg]
  · intro a
    simp [hm]

end Sys2Proof.Machine
end

