-- ==== Sys2Proof/Laws/Step.lean ====
section
/-! SUPPORT. What an instruction and a step can do, once: the cases every later proof starts from. -/

namespace Sys2Proof.Machine

/-! ### Fetch (R36) -/

theorem fetchWindow_length (s : State) :
    s.fetchWindow.length = min maxLength (s.plen.toNat - s.pc.toNat) := readBytes_length _ _ _

theorem fetchWindow_getElem (s : State) (k : Nat) (h : k < s.fetchWindow.length) :
    s.fetchWindow[k] = s.prog.read (s.pc.toNat + k) := readBytes_getElem _ _ _ k h

theorem fetchInstr_ok {s : State} {i : Instr} {rest : List Byte} (h : decode s.fetchWindow = .ok (i, rest)) :
    s.fetchInstr = .ok i := by
  simp only [State.fetchInstr, h]

theorem fetchInstr_error {s : State} {e : DecodeError} (h : decode s.fetchWindow = .error e) :
    s.fetchInstr = .error (faultOf e) := by
  simp only [State.fetchInstr, h]

/-- An instruction fetched is one decoded from the bytes at `PC`. -/
theorem fetchInstr_cases (s : State) :
    (∃ i rest, decode s.fetchWindow = .ok (i, rest) ∧ s.fetchInstr = .ok i) ∨
    (∃ e, decode s.fetchWindow = .error e ∧ s.fetchInstr = .error (faultOf e)) := by
  cases h : decode s.fetchWindow with
  | ok p => exact .inl ⟨p.1, p.2, by rw [Prod.mk.eta], fetchInstr_ok h⟩
  | error e => exact .inr ⟨e, rfl, fetchInstr_error h⟩

/-! ### One step (R136) -/

/-- In a terminal state a step holds. -/
theorem step_terminal {s : State} (h : s.status ≠ .success) : step s = .next s := by
  cases hs : s.status with
  | success => exact absurd hs h
  | exited => simp only [step, stepCommand, hs]
  | faulted k => simp only [step, stepCommand, hs]

/-- Elsewhere it runs the instruction it fetched, or takes the fault of the fetch. -/
theorem step_running {s : State} (h : s.status = .success) : step s = executeOne s := by
  simp only [step, stepCommand, h]

theorem step_fetched {s : State} {i : Instr} (h : s.status = .success) (hi : s.fetchInstr = .ok i) :
    step s = exec i s := by
  simp only [step_running h, executeOne, hi]

theorem step_unfetched {s : State} {k : Fault} (h : s.status = .success) (hk : s.fetchInstr = .error k) :
    step s = .next (s.takeFault k) := by
  simp only [step_running h, executeOne, hk]

/-! ### Runs of several steps -/

@[simp] theorem runSteps_zero (s : State) : runSteps 0 s = .next s := rfl

/-- A run of one step and then `n`. -/
theorem runSteps_succ {s t : State} (n : Nat) (h : step s = .next t) : runSteps (n + 1) s = runSteps n t := by
  simp only [runSteps, h]

/-! ### One instruction -/

/-- The ways the instruction `i`, begun in `s`, ends in `u`: a fault that a check of its own raised, a literal pushed, two
operands replaced by a result, the jump, or the exit. -/
def InstrEnds (i : Instr) (s u : State) : Prop :=
  (u = s.takeFault .stackOverflow) ∨
  (u = s.takeFault .stackUnderflow) ∨
  (u = s.takeFault .jumpOutOfRange) ∨
  (∃ (w : Nat) (v : BitVec w), s.sp.toNat + w / 8 ≤ s.params.stackCap.toNat ∧
    u = { (s.pushed v).advance (encode i).length with status := .success }) ∨
  (∃ (w r : Nat) (f : BitVec w → BitVec w → BitVec r),
    2 * (w / 8) ≤ s.sp.toNat ∧ s.sp.toNat - 2 * (w / 8) + r / 8 ≤ s.params.stackCap.toNat ∧ r / 8 ≤ 2 * (w / 8) ∧
    u = { ((s.popped w).pushed (f (s.left w) (s.top w))).advance (encode i).length with status := .success }) ∨
  (∃ target : Word16, i = .jmp target ∧ target.toNat < s.plen.toNat ∧ u = { s with pc := target, status := .success }) ∨
  (i = .exit ∧ u = { s with exitf := true, status := .exited })

theorem ends_push {i : Instr} {s : State} {w : Nat} (v : BitVec w) (hl : 1 + w / 8 = (encode i).length) :
    ∃ u, s.finish (pushLiteral v s) = .next u ∧ InstrEnds i s u := by
  rcases pushLiteral_cases s v with ⟨_, h⟩ | ⟨hf, h⟩
  · exact ⟨_, by rw [h]; rfl, .inl rfl⟩
  · exact ⟨_, by rw [h]; rfl, .inr (.inr (.inr (.inl ⟨w, v, hf, by rw [hl]⟩)))⟩

theorem ends_binary {i : Instr} {s : State} {w r : Nat} (len : Nat) (f : BitVec w → BitVec w → BitVec r)
    (hr : r / 8 ≤ 2 * (w / 8)) (hl : len = (encode i).length) :
    ∃ u, s.finish (binary len f s) = .next u ∧ InstrEnds i s u := by
  rcases binary_cases len f s hr with ⟨_, h⟩ | ⟨_, _, h⟩ | ⟨h1, h2, h⟩
  · exact ⟨_, by rw [h]; rfl, .inr (.inl rfl)⟩
  · exact ⟨_, by rw [h]; rfl, .inl rfl⟩
  · exact ⟨_, by rw [h]; rfl, .inr (.inr (.inr (.inr (.inl ⟨w, r, f, h1, h2, hr, by rw [hl]⟩))))⟩

theorem ends_jump {s : State} (target : Word16) : ∃ u, execJmp target s = .next u ∧ InstrEnds (.jmp target) s u := by
  by_cases h : s.plen.toNat ≤ target.toNat
  · exact ⟨_, by rw [execJmp, jumpTo, if_pos h]; rfl, .inr (.inr (.inl rfl))⟩
  · exact ⟨_, by rw [execJmp, jumpTo, if_neg h]; rfl,
      .inr (.inr (.inr (.inr (.inr (.inl ⟨target, rfl, by omega, rfl⟩)))))⟩

theorem ends_exit {s : State} : ∃ u, execExit s = .next u ∧ InstrEnds .exit s u :=
  ⟨_, rfl, .inr (.inr (.inr (.inr (.inr (.inr ⟨rfl, rfl⟩)))))⟩

/-- All that an instruction can do: it answers a next state, which is one of the ends above. -/
theorem exec_cases (i : Instr) (s : State) : ∃ u, exec i s = .next u ∧ InstrEnds i s u := by
  cases i <;>
    first
    | exact ends_push _ rfl
    | exact ends_binary _ _ (by decide) rfl
    | exact ends_jump _
    | exact ends_exit

/-- All that a step can do. -/
theorem step_cases (s : State) :
    (s.status ≠ .success ∧ step s = .next s) ∨
    (∃ e, s.status = .success ∧ decode s.fetchWindow = .error e ∧ step s = .next (s.takeFault (faultOf e))) ∨
    (∃ i rest u, s.status = .success ∧ decode s.fetchWindow = .ok (i, rest) ∧ step s = exec i s ∧
      exec i s = .next u ∧ InstrEnds i s u) := by
  by_cases h : s.status = .success
  · rcases fetchInstr_cases s with ⟨i, rest, hd, hi⟩ | ⟨e, hd, he⟩
    · obtain ⟨u, hu, hends⟩ := exec_cases i s
      exact .inr (.inr ⟨i, rest, u, h, hd, step_fetched h hi, hu, hends⟩)
    · exact .inr (.inl ⟨e, h, hd, step_unfetched h he⟩)
  · exact .inl ⟨h, step_terminal h⟩

/-- Every step answers a next state, the one that the command `step` leaves. -/
theorem step_stepped (s : State) : step s = .next s.stepped := by
  have h : ∃ t, step s = .next t := by
    rcases step_cases s with ⟨_, h⟩ | ⟨_, _, _, h⟩ | ⟨_, _, u, _, _, h, h', _⟩
    · exact ⟨_, h⟩
    · exact ⟨_, h⟩
    · exact ⟨u, h.trans h'⟩
  obtain ⟨t, ht⟩ := h
  rw [ht, State.stepped, ht]

end Sys2Proof.Machine
end

