-- ==== Sys2Proof/Certificates/Slice0/Obligations.lean ====
section
/-! DEFINITION. The statements for the provers. Each names in its docstring the rule it formalises or what it rests on;
the predicates are those of Safety.lean. -/

open Sys2Proof Sys2Proof.Machine

/-- For every instruction, with every literal and every jump target, and any bytes after it: decode of the encoder's
bytes followed by those bytes answers that instruction and exactly those bytes. Rests on 30_encoding.md sections 1,
2, 3, 5 and 9. -/
def Obligations.DecodeOfEncodeIsTheInstruction : Prop :=
  ∀ (i : Instr) (rest : List Byte), decode (encode i ++ rest) = .ok (i, rest)

/-- For all bytes that decode to an instruction with some bytes left over: the encoder's bytes of that instruction
followed by the bytes left over are the bytes decoded. No two byte sequences are read as one instruction. Rests on
30_encoding.md sections 1, 2, 3 and 5. -/
def Obligations.EncodeOfDecodeIsTheBytes : Prop :=
  ∀ (bs : List Byte) (i : Instr) (rest : List Byte), decode bs = .ok (i, rest) → encode i ++ rest = bs

/-- For all bytes: there is an instruction that the decoder reads from them with nothing left over if and only if the
opcode is known, the payload has its length and the Type byte is accepted, by the ranges of WellFormed.lean, which
are written without the decoder's tables. Rests on 30_encoding.md sections 1, 2, 3, 4 and 6; 41_arithmetic.md
section 4. -/
def Obligations.DecoderReadsExactlyTheWellFormedBytes : Prop :=
  ∀ bs : List Byte, (∃ i, decode bs = .ok (i, [])) ↔ wellFormedBytes bs = true

/-- The length of an opcode byte is 2, 3, 5, 9, 2, 1, 3, 1 on the opcode values of R53's table and undefined on every
other byte; whatever the decoder reads has the length of its first byte, whatever the payload. Formalises R53. -/
def Obligations.LengthIsAFunctionOfTheOpcodeByte : Prop :=
  (∀ op : Byte, instrLength op =
      if op ∈ [0x10, 0x11, 0x15] then some 2
      else if op ∈ [0x12, 0x16] then some 3
      else if op ∈ [0x13, 0x17, 0x19] then some 5
      else if op ∈ [0x14, 0x18, 0x1A] then some 9
      else if op ∈ [0x20, 0x21, 0x22, 0x50] then some 2
      else if op ∈ [0x30, 0x31, 0x32, 0x33, 0x40, 0x41] then some 1
      else if op = 0x60 then some 3
      else if op = 0x61 then some 1
      else none)
  ∧ ∀ (op : Byte) (payload rest : List Byte) (i : Instr), decode (op :: payload) = .ok (i, rest) →
      instrLength op = some (encode i).length ∧ rest.length + (encode i).length = payload.length + 1

/-- Nine byte sequences from the examples of the instruction files decode to their instructions: PUSH_U8 9, PUSH_U16
0x00FF, PUSH_S8 -3, PUSH_F32 0.1, ADD U8, MUL S8, CMP_EQ F32, JMP 11, and EXIT. Rests on 30_encoding.md section 9;
95_test_vectors.md sections 1 and 2. -/
def Obligations.WrittenOutWordsDecode : Prop :=
  decode [0x11, 0x09] = .ok (.pushU8 9, [])
  ∧ decode [0x12, 0x00, 0xFF] = .ok (.pushU16 0x00FF, [])
  ∧ decode [0x15, 0xFD] = .ok (.pushS8 0xFD, [])
  ∧ decode [0x19, 0x3D, 0xCC, 0xCC, 0xCD] = .ok (.pushF32 0x3DCCCCCD, [])
  ∧ decode [0x20, 0x01] = .ok (.addU8, [])
  ∧ decode [0x22, 0x05] = .ok (.mulS8, [])
  ∧ decode [0x50, 0x09] = .ok (.cmpEqF32, [])
  ∧ decode [0x60, 0x00, 0x0B] = .ok (.jmp 11, [])
  ∧ decode [0x61] = .ok (.exit, [])

/-- In any state that is not terminal: an opcode byte outside the 23 of the map (0x00 among them), a generic opcode with
a Type byte above 0x0A, and ADD, SUB or MUL with Type byte 0x00 (whatever is on the stack) each step to the same
state with STATUS InvalidOpcode, so PC stays at the opcode byte; CMP_EQ with Type byte 0x00 runs. (R55, R85, R153;
that a bad Type byte is this fault is the spec's decisions D10 and D11, log entry 17.) Rests on 30_encoding.md
section 6; 41_arithmetic.md section 4; 60_exceptions.md section 1. -/
def Obligations.InvalidEncodingsFaultWithInvalidOpcode : Prop :=
  (∀ s : State, s.status = .success → s.pc.toNat < s.plen.toNat →
      s.prog.read s.pc.toNat ∉ ([0x10, 0x11, 0x12, 0x13, 0x14, 0x15, 0x16, 0x17, 0x18, 0x19, 0x1A, 0x20, 0x21, 0x22,
        0x30, 0x31, 0x32, 0x33, 0x40, 0x41, 0x50, 0x60, 0x61] : List Byte) →
      step s = .next { s with status := .faulted .invalidOpcode })
  ∧ (∀ (s : State) (op t : Byte), op ∈ ([0x20, 0x21, 0x22, 0x50] : List Byte) → 0x0A < t.toNat → AtPc s [op, t] →
      step s = .next { s with status := .faulted .invalidOpcode })
  ∧ (∀ (s : State) (op : Byte), op ∈ ([0x20, 0x21, 0x22] : List Byte) → AtPc s [op, 0x00] →
      step s = .next { s with status := .faulted .invalidOpcode })
  ∧ (∀ s : State, AtPc s [0x50, 0x00] → step s = exec .cmpEqBool s)

/-- In a state whose STATUS is Success, if the bytes that can be fetched from PC on decode to an instruction, the step
is exec of that instruction at that state. Rests on 30_encoding.md section 7; 48_host_operations.md section 2. -/
def Obligations.StepRunsTheDecodedInstruction : Prop :=
  ∀ (s : State) (i : Instr) (rest : List Byte), s.status = .success → decode s.fetchWindow = .ok (i, rest) →
    step s = exec i s

/-- For every instruction and every state with STATUS Success whose program bytes from PC on, all below PLEN, are the
encoder's bytes of it: the step is exec of that instruction at that state. Rests on 30_encoding.md section 7;
20_memory.md section 6. -/
def Obligations.StepRunsTheEncodedInstructionAtPc : Prop :=
  ∀ (s : State) (i : Instr), AtPc s (encode i) → step s = exec i s

/-- In a state that is not terminal: with PC at or above PLEN, or with a known opcode byte below PLEN whose instruction
reaches past PLEN, the step gives the same state with STATUS FetchOutOfRange; and a step that reports
FetchOutOfRange is in one of these two cases. (R156; the spec's decision D12, log entry 17.) Rests on
60_exceptions.md section 1. -/
def Obligations.FetchPastTheProgramFaults : Prop :=
  ∀ s : State, s.status = .success →
    (s.plen.toNat ≤ s.pc.toNat → step s = .next { s with status := .faulted .fetchOutOfRange })
    ∧ (∀ (op : Byte) (len : Nat), instrLength op = some len → CutShort s op len →
        step s = .next { s with status := .faulted .fetchOutOfRange })
    ∧ (∀ t, step s = .next t → t.status = .faulted .fetchOutOfRange →
        s.plen.toNat ≤ s.pc.toNat ∨
          ∃ len, instrLength (s.prog.read s.pc.toNat) = some len ∧ s.plen.toNat < s.pc.toNat + len)

/-- In any state that is not terminal and has SP within the capacity, the step answers a next state whose STATUS is a
fault exactly when that fault is the first of R157's list to hold: opcode fetch, opcode validity, payload fetch,
Type validity, stack bytes, jump range, each computed from the program's bytes, SP and the capacities. (R151 to
R157; the order is the spec's decision D14, log entry 17.) Rests on 60_exceptions.md sections 1 and 2. -/
def Obligations.StepReportsExactlyTheFirstFault : Prop :=
  ∀ s : State, s.status = .success → s.sp.toNat ≤ s.params.stackCap.toNat →
    ∃ t, step s = .next t ∧ ∀ k, t.status = .faulted k ↔ firstFault s = some k

/-- Whatever the state: if a step answers a next state whose STATUS is a fault, that state is the state before with that
STATUS. (R158; the spec's decision D13, log entry 17.) Rests on 60_exceptions.md section 3. -/
def Obligations.FaultChangesNothingButStatus : Prop :=
  ∀ (s t : State) (k : Fault), step s = .next t → t.status = .faulted k → t = { s with status := .faulted k }

/-- From a state whose STATUS is Exited or a fault, any number of steps answers that same state; the command step
returns its STATUS. (That such a step holds, and is not refused, is a choice: R136 by the spec's decision D15, log
entry 4; the source gives the call no effect.) Rests on 48_host_operations.md section 2; 60_exceptions.md section 4. -/
def Obligations.TerminalStateHoldsForEver : Prop :=
  ∀ (s : State) (n : Nat), s.status ≠ .success →
    runSteps n s = .next s ∧ (Command.run .step s) = (.status s.status, s)

/-- For every step that is not a hold: after a fault PC is unchanged; after EXIT it is unchanged; after a JMP that does
not fault it is the target; after any other instruction that does not fault it is PC plus the length of its opcode,
with no wrap and at most PLEN. erase sets it to 0. (R123, and R122, which the spec marks as derived from R120, R121,
R123 and R158.) Rests on 45_control.md. -/
def Obligations.NextPcIsThatOfTheSummary : Prop :=
  (∀ (s t : State), s.status = .success → step s = .next t →
      let op := s.prog.read s.pc.toNat
      (∀ k, t.status = .faulted k → t.pc = s.pc)
      ∧ (s.pc.toNat < s.plen.toNat → op = 0x61 → t.pc = s.pc)
      ∧ (op = 0x60 → t.status = .success →
          t.pc.toNat = (s.prog.read (s.pc.toNat + 1)).toNat * 256 + (s.prog.read (s.pc.toNat + 2)).toNat
            ∧ t.pc.toNat < s.plen.toNat)
      ∧ (op ≠ 0x60 → t.status = .success →
          ∃ len, instrLength op = some len ∧ t.pc.toNat = s.pc.toNat + len ∧ t.pc.toNat ≤ s.plen.toNat))
  ∧ ∀ s : State, s.erase.pc = 0

/-- For every state that meets the invariant (PLEN within PROG_CAP, PC within PLEN, SP within STACK_CAP, the three
spaces in canonical form inside their sizes, STATUS not MemoryOutOfRange, the capacities in their bounds): the state
after a step meets it. Rests on 10_state.md sections 1, 2, 3 and 5; 00_scope.md section 4. -/
def Obligations.StepKeepsTheInvariant : Prop :=
  ∀ s t : State, s.wf = true → step s = .next t → t.wf = true

/-- The state after reset meets the invariant; so does the state at construction for any capacities within the bounds of
the parameters. Rests on 10_state.md section 9. -/
def Obligations.ResetMeetsTheInvariant : Prop :=
  State.reset.wf = true ∧ ∀ p : Params, p.wf = true → (State.resetWith p).wf = true

/-- For every command (builders with any bytes they can append, erase, clear, step, cleanRun with any fuel, and the
queries) and every state that meets the invariant: the state after the command meets it. Rests on 10_state.md
sections 1, 2, 3 and 5; 48_host_operations.md sections 1 and 2. -/
def Obligations.CommandsKeepTheInvariant : Prop :=
  ∀ (c : Command) (s : State), s.wf = true → (c.run s).2.wf = true

/-- Whatever the state and the instruction: after a step every byte of PROG and of MEM reads as before, and PLEN and the
capacities are unchanged. Rests on 10_state.md sections 2 and 6; 20_memory.md section 7. -/
def Obligations.StepLeavesProgramAndDataMemoryAlone : Prop :=
  ∀ s t : State, step s = .next t →
    t.params = s.params ∧ t.plen = s.plen ∧ SameBytes s.prog t.prog ∧ SameBytes s.mem t.mem

/-- After a step EXITF is set exactly when it was set before or an EXIT byte was fetched in a state that is not
terminal. erase and reset clear it, and every command but erase, step and cleanRun leaves it. Two states that differ
in EXITF alone step to states that differ in EXITF alone. Rests on 10_state.md section 4. -/
def Obligations.ExitFlagIsSetOnlyByExitAndClearedOnlyByErase : Prop :=
  (∀ s t : State, step s = .next t →
      (t.exitf = true ↔ s.exitf = true ∨
        (s.status = .success ∧ s.pc.toNat < s.plen.toNat ∧ s.prog.read s.pc.toNat = 0x61)))
  ∧ (∀ s : State, s.erase.exitf = false) ∧ State.reset.exitf = false
  ∧ (∀ (c : Command) (s : State), c ≠ .erase → c ≠ .step → (∀ n, c ≠ .cleanRun n) → (c.run s).2.exitf = s.exitf)
  ∧ ∀ (s t : State) (b : Bool), step s = .next t →
      ∃ e, step { s with exitf := b } = .next { t with exitf := e }

/-- Two states that agree on the capacities, the registers, the program bytes below PLEN and the stack bytes below SP
(their other bytes and all of MEM may differ) step to states that agree in the same way. Rests on 10_state.md
sections 2, 5, 6 and 9. -/
def Obligations.StepIgnoresUnobservableBytes : Prop :=
  ∀ s s' t : State, SameObserved s s' → step s = .next t → ∃ t', step s' = .next t' ∧ SameObserved t t'

/-- The reset state does not hold it; from a state that does not, no step and no command leads to one that does. Rests
on 60_exceptions.md section 1. -/
def Obligations.MemoryOutOfRangeIsNeverRaised : Prop :=
  State.reset.status ≠ .faulted .memoryOutOfRange
  ∧ (∀ s t : State, s.status ≠ .faulted .memoryOutOfRange → step s = .next t →
      t.status ≠ .faulted .memoryOutOfRange)
  ∧ ∀ (c : Command) (s : State), s.status ≠ .faulted .memoryOutOfRange →
      (c.run s).2.status ≠ .faulted .memoryOutOfRange

/-- For PUSH_BOOL to PUSH_F64 and every literal: cut short by PLEN the step only sets FetchOutOfRange; a step with the
opcode byte and the literal's bytes at PC, most significant first, runs it; it sets StackOverflow alone exactly when
the literal does not fit; else it completes: the literal stands on top of the stack, most significant byte deepest,
SP is n higher, every other stack byte, PROG, PLEN, MEM and EXITF are unchanged, PC is 1 + n further and STATUS is
Success. Formalises R61, R63, R64, R65, R66, R67, R68, R69, R70, R71, R72. -/
def Obligations.LiteralPushesFollowTheirRule : Prop :=
  (∀ imm, LiteralPushRule (.pushBool imm) 0x10 [byteOf 0 imm.toNat] 1 imm.toNat)
  ∧ (∀ imm, LiteralPushRule (.pushU8 imm) 0x11 [byteOf 0 imm.toNat] 1 imm.toNat)
  ∧ (∀ imm, LiteralPushRule (.pushU16 imm) 0x12 [byteOf 1 imm.toNat, byteOf 0 imm.toNat] 2 imm.toNat)
  ∧ (∀ imm, LiteralPushRule (.pushU32 imm) 0x13 [byteOf 3 imm.toNat, byteOf 2 imm.toNat, byteOf 1 imm.toNat, byteOf 0 imm.toNat] 4 imm.toNat)
  ∧ (∀ imm, LiteralPushRule (.pushU64 imm) 0x14 [byteOf 7 imm.toNat, byteOf 6 imm.toNat, byteOf 5 imm.toNat, byteOf 4 imm.toNat, byteOf 3 imm.toNat, byteOf 2 imm.toNat, byteOf 1 imm.toNat, byteOf 0 imm.toNat] 8 imm.toNat)
  ∧ (∀ imm, LiteralPushRule (.pushS8 imm) 0x15 [byteOf 0 imm.toNat] 1 imm.toNat)
  ∧ (∀ imm, LiteralPushRule (.pushS16 imm) 0x16 [byteOf 1 imm.toNat, byteOf 0 imm.toNat] 2 imm.toNat)
  ∧ (∀ imm, LiteralPushRule (.pushS32 imm) 0x17 [byteOf 3 imm.toNat, byteOf 2 imm.toNat, byteOf 1 imm.toNat, byteOf 0 imm.toNat] 4 imm.toNat)
  ∧ (∀ imm, LiteralPushRule (.pushS64 imm) 0x18 [byteOf 7 imm.toNat, byteOf 6 imm.toNat, byteOf 5 imm.toNat, byteOf 4 imm.toNat, byteOf 3 imm.toNat, byteOf 2 imm.toNat, byteOf 1 imm.toNat, byteOf 0 imm.toNat] 8 imm.toNat)
  ∧ (∀ imm, LiteralPushRule (.pushF32 imm) 0x19 [byteOf 3 imm.toNat, byteOf 2 imm.toNat, byteOf 1 imm.toNat, byteOf 0 imm.toNat] 4 imm.toNat)
  ∧ (∀ imm, LiteralPushRule (.pushF64 imm) 0x1A [byteOf 7 imm.toNat, byteOf 6 imm.toNat, byteOf 5 imm.toNat, byteOf 4 imm.toNat, byteOf 3 imm.toNat, byteOf 2 imm.toNat, byteOf 1 imm.toNat, byteOf 0 imm.toNat] 8 imm.toNat)

/-- For ADD U8 to F64, in every state: cut short by PLEN the step only sets FetchOutOfRange; with Type byte 0x00 or
above 0x0A it only sets InvalidOpcode; a step with its two bytes at PC runs it; with fewer than 2n bytes on the
stack it only sets StackUnderflow; else, with SP within the capacity, it completes: the sum of the left-hand operand
a beneath and the right-hand operand b on top, modulo 2^N (of the unsigned values for the U Types, of the two's
complement values for the S Types), or fadd of them for F32 and F64, stands where a stood, SP is n lower, every
other stack byte, PROG, PLEN, MEM and EXITF are unchanged, PC is 2 further and STATUS is Success. Formalises R81. -/
def Obligations.AddFollowsItsRule : Prop :=
  (∀ s, CutShort s 0x20 2 → step s = .next { s with status := .faulted .fetchOutOfRange })
  ∧ (∀ (s : State) (t : Byte), t = 0x00 ∨ 0x0A < t.toNat → AtPc s [0x20, t] →
      step s = .next { s with status := .faulted .invalidOpcode })
  ∧ BinaryRule .addU8 [0x20, 0x01] (fun (a b : BitVec 8) => BitVec.ofInt 8 ((a.toNat : Int) + (b.toNat : Int)))
  ∧ BinaryRule .addU16 [0x20, 0x02] (fun (a b : BitVec 16) => BitVec.ofInt 16 ((a.toNat : Int) + (b.toNat : Int)))
  ∧ BinaryRule .addU32 [0x20, 0x03] (fun (a b : BitVec 32) => BitVec.ofInt 32 ((a.toNat : Int) + (b.toNat : Int)))
  ∧ BinaryRule .addU64 [0x20, 0x04] (fun (a b : BitVec 64) => BitVec.ofInt 64 ((a.toNat : Int) + (b.toNat : Int)))
  ∧ BinaryRule .addS8 [0x20, 0x05] (fun (a b : BitVec 8) => BitVec.ofInt 8 (a.toInt + b.toInt))
  ∧ BinaryRule .addS16 [0x20, 0x06] (fun (a b : BitVec 16) => BitVec.ofInt 16 (a.toInt + b.toInt))
  ∧ BinaryRule .addS32 [0x20, 0x07] (fun (a b : BitVec 32) => BitVec.ofInt 32 (a.toInt + b.toInt))
  ∧ BinaryRule .addS64 [0x20, 0x08] (fun (a b : BitVec 64) => BitVec.ofInt 64 (a.toInt + b.toInt))
  ∧ BinaryRule .addF32 [0x20, 0x09] (fun (a b : BitVec 32) => fadd Config.binary32 a b)
  ∧ BinaryRule .addF64 [0x20, 0x0A] (fun (a b : BitVec 64) => fadd Config.binary64 a b)

/-- For SUB U8 to F64, in every state: cut short by PLEN the step only sets FetchOutOfRange; with Type byte 0x00 or
above 0x0A it only sets InvalidOpcode; a step with its two bytes at PC runs it; with fewer than 2n bytes on the
stack it only sets StackUnderflow; else, with SP within the capacity, it completes: the difference, left minus
right, of the left-hand operand a beneath and the right-hand operand b on top, modulo 2^N (of the unsigned values
for the U Types, of the two's complement values for the S Types), or fsub of them for F32 and F64, stands where a
stood, SP is n lower, every other stack byte, PROG, PLEN, MEM and EXITF are unchanged, PC is 2 further and STATUS is
Success. Formalises R82. -/
def Obligations.SubFollowsItsRule : Prop :=
  (∀ s, CutShort s 0x21 2 → step s = .next { s with status := .faulted .fetchOutOfRange })
  ∧ (∀ (s : State) (t : Byte), t = 0x00 ∨ 0x0A < t.toNat → AtPc s [0x21, t] →
      step s = .next { s with status := .faulted .invalidOpcode })
  ∧ BinaryRule .subU8 [0x21, 0x01] (fun (a b : BitVec 8) => BitVec.ofInt 8 ((a.toNat : Int) - (b.toNat : Int)))
  ∧ BinaryRule .subU16 [0x21, 0x02] (fun (a b : BitVec 16) => BitVec.ofInt 16 ((a.toNat : Int) - (b.toNat : Int)))
  ∧ BinaryRule .subU32 [0x21, 0x03] (fun (a b : BitVec 32) => BitVec.ofInt 32 ((a.toNat : Int) - (b.toNat : Int)))
  ∧ BinaryRule .subU64 [0x21, 0x04] (fun (a b : BitVec 64) => BitVec.ofInt 64 ((a.toNat : Int) - (b.toNat : Int)))
  ∧ BinaryRule .subS8 [0x21, 0x05] (fun (a b : BitVec 8) => BitVec.ofInt 8 (a.toInt - b.toInt))
  ∧ BinaryRule .subS16 [0x21, 0x06] (fun (a b : BitVec 16) => BitVec.ofInt 16 (a.toInt - b.toInt))
  ∧ BinaryRule .subS32 [0x21, 0x07] (fun (a b : BitVec 32) => BitVec.ofInt 32 (a.toInt - b.toInt))
  ∧ BinaryRule .subS64 [0x21, 0x08] (fun (a b : BitVec 64) => BitVec.ofInt 64 (a.toInt - b.toInt))
  ∧ BinaryRule .subF32 [0x21, 0x09] (fun (a b : BitVec 32) => fsub Config.binary32 a b)
  ∧ BinaryRule .subF64 [0x21, 0x0A] (fun (a b : BitVec 64) => fsub Config.binary64 a b)

/-- For MUL U8 to F64, in every state: cut short by PLEN the step only sets FetchOutOfRange; with Type byte 0x00 or
above 0x0A it only sets InvalidOpcode; a step with its two bytes at PC runs it; with fewer than 2n bytes on the
stack it only sets StackUnderflow; else, with SP within the capacity, it completes: the product of the left-hand
operand a beneath and the right-hand operand b on top, modulo 2^N (of the unsigned values for the U Types, of the
two's complement values for the S Types), or fmul of them for F32 and F64, stands where a stood, SP is n lower,
every other stack byte, PROG, PLEN, MEM and EXITF are unchanged, PC is 2 further and STATUS is Success. Formalises
R83. -/
def Obligations.MulFollowsItsRule : Prop :=
  (∀ s, CutShort s 0x22 2 → step s = .next { s with status := .faulted .fetchOutOfRange })
  ∧ (∀ (s : State) (t : Byte), t = 0x00 ∨ 0x0A < t.toNat → AtPc s [0x22, t] →
      step s = .next { s with status := .faulted .invalidOpcode })
  ∧ BinaryRule .mulU8 [0x22, 0x01] (fun (a b : BitVec 8) => BitVec.ofInt 8 ((a.toNat : Int) * (b.toNat : Int)))
  ∧ BinaryRule .mulU16 [0x22, 0x02] (fun (a b : BitVec 16) => BitVec.ofInt 16 ((a.toNat : Int) * (b.toNat : Int)))
  ∧ BinaryRule .mulU32 [0x22, 0x03] (fun (a b : BitVec 32) => BitVec.ofInt 32 ((a.toNat : Int) * (b.toNat : Int)))
  ∧ BinaryRule .mulU64 [0x22, 0x04] (fun (a b : BitVec 64) => BitVec.ofInt 64 ((a.toNat : Int) * (b.toNat : Int)))
  ∧ BinaryRule .mulS8 [0x22, 0x05] (fun (a b : BitVec 8) => BitVec.ofInt 8 (a.toInt * b.toInt))
  ∧ BinaryRule .mulS16 [0x22, 0x06] (fun (a b : BitVec 16) => BitVec.ofInt 16 (a.toInt * b.toInt))
  ∧ BinaryRule .mulS32 [0x22, 0x07] (fun (a b : BitVec 32) => BitVec.ofInt 32 (a.toInt * b.toInt))
  ∧ BinaryRule .mulS64 [0x22, 0x08] (fun (a b : BitVec 64) => BitVec.ofInt 64 (a.toInt * b.toInt))
  ∧ BinaryRule .mulF32 [0x22, 0x09] (fun (a b : BitVec 32) => fmul Config.binary32 a b)
  ∧ BinaryRule .mulF64 [0x22, 0x0A] (fun (a b : BitVec 64) => fmul Config.binary64 a b)

/-- For BW_AND_X8 to X64, in every state: a step with the opcode byte at PC runs it; with fewer than 2n bytes on the
stack it only sets StackUnderflow; else, with SP within the capacity, it completes: the value whose bit i is 1
exactly when bit i of both operands is 1 stands where the left-hand operand stood, every other stack byte, PROG,
PLEN, MEM and EXITF are unchanged, SP is n lower, PC is 1 further and STATUS is Success. Formalises R91, R92, R93,
R94. -/
def Obligations.BitwiseAndFollowsItsRule : Prop :=
  BinaryRule .bwAndX8 [0x30] (fun (a b : BitVec 8) => a &&& b)
  ∧ BinaryRule .bwAndX16 [0x31] (fun (a b : BitVec 16) => a &&& b)
  ∧ BinaryRule .bwAndX32 [0x32] (fun (a b : BitVec 32) => a &&& b)
  ∧ BinaryRule .bwAndX64 [0x33] (fun (a b : BitVec 64) => a &&& b)

/-- In every state: a step with the opcode byte at PC runs it; with fewer than 2 bytes on the stack it only sets
StackUnderflow; else, with SP within the capacity, it completes: 0x01 when both operands (AND), or either (OR), are
not 0x00, and 0x00 otherwise, stands where the left-hand operand stood, both operands popped, every other stack
byte, PROG, PLEN, MEM and EXITF unchanged, PC 1 further, STATUS Success. Formalises R101, R102. -/
def Obligations.LogicFollowsItsRule : Prop :=
  BinaryRule .logicAnd [0x40] (fun (a b : BitVec 8) => if a ≠ 0 ∧ b ≠ 0 then (1 : BitVec 8) else 0)
  ∧ BinaryRule .logicOr [0x41] (fun (a b : BitVec 8) => if a ≠ 0 ∨ b ≠ 0 then (1 : BitVec 8) else 0)

/-- In every state: cut short by PLEN the step only sets FetchOutOfRange; with a Type byte above 0x0A it only sets
InvalidOpcode; a step with its two bytes at PC runs it; with fewer than 2n bytes on the stack it only sets
StackUnderflow; else, with SP within the capacity, it completes and leaves one byte where the left-hand operand
began: for BOOL and the integer Types 0x01 exactly when the patterns are identical; for F32 and F64 0x00 with a NaN
operand (a magnitude above that of infinity), 0x01 for two zeros of either sign, else 0x01 exactly when the patterns
are identical. Every other stack byte, PROG, PLEN, MEM and EXITF are unchanged, PC is 2 further, STATUS is Success.
Formalises R110, R111, R112. -/
def Obligations.CmpEqFollowsItsRule : Prop :=
  BinaryRule .cmpEqBool [0x50, 0x00] (fun (a b : BitVec 8) => if a = b then (1 : BitVec 8) else 0)
  ∧ BinaryRule .cmpEqU8 [0x50, 0x01] (fun (a b : BitVec 8) => if a = b then (1 : BitVec 8) else 0)
  ∧ BinaryRule .cmpEqU16 [0x50, 0x02] (fun (a b : BitVec 16) => if a = b then (1 : BitVec 8) else 0)
  ∧ BinaryRule .cmpEqU32 [0x50, 0x03] (fun (a b : BitVec 32) => if a = b then (1 : BitVec 8) else 0)
  ∧ BinaryRule .cmpEqU64 [0x50, 0x04] (fun (a b : BitVec 64) => if a = b then (1 : BitVec 8) else 0)
  ∧ BinaryRule .cmpEqS8 [0x50, 0x05] (fun (a b : BitVec 8) => if a = b then (1 : BitVec 8) else 0)
  ∧ BinaryRule .cmpEqS16 [0x50, 0x06] (fun (a b : BitVec 16) => if a = b then (1 : BitVec 8) else 0)
  ∧ BinaryRule .cmpEqS32 [0x50, 0x07] (fun (a b : BitVec 32) => if a = b then (1 : BitVec 8) else 0)
  ∧ BinaryRule .cmpEqS64 [0x50, 0x08] (fun (a b : BitVec 64) => if a = b then (1 : BitVec 8) else 0)
  ∧ BinaryRule .cmpEqF32 [0x50, 0x09] (fun (a b : BitVec 32) =>
      if 0x7F800000 < (a &&& 0x7FFFFFFF).toNat ∨ 0x7F800000 < (b &&& 0x7FFFFFFF).toNat then (0 : BitVec 8)
      else if a &&& 0x7FFFFFFF = 0 ∧ b &&& 0x7FFFFFFF = 0 then 1
      else if a = b then 1 else 0)
  ∧ BinaryRule .cmpEqF64 [0x50, 0x0A] (fun (a b : BitVec 64) =>
      if 0x7FF0000000000000 < (a &&& 0x7FFFFFFFFFFFFFFF).toNat ∨ 0x7FF0000000000000 < (b &&& 0x7FFFFFFFFFFFFFFF).toNat then (0 : BitVec 8)
      else if a &&& 0x7FFFFFFFFFFFFFFF = 0 ∧ b &&& 0x7FFFFFFFFFFFFFFF = 0 then 1
      else if a = b then 1 else 0)
  ∧ (∀ s, CutShort s 0x50 2 → step s = .next { s with status := .faulted .fetchOutOfRange })
  ∧ (∀ (s : State) (t : Byte), 0x0A < t.toNat → AtPc s [0x50, t] →
      step s = .next { s with status := .faulted .invalidOpcode })

/-- For every pair of bytes hi lo: cut short by PLEN the step only sets FetchOutOfRange; a step with 60 hi lo at PC runs
JMP to hi * 256 + lo; a target at or above PLEN only sets JumpOutOfRange; a target below PLEN completes with PC the
target and STATUS Success, nothing else changed. Formalises R120. -/
def Obligations.JumpFollowsItsRule : Prop :=
  (∀ s, CutShort s 0x60 3 → step s = .next { s with status := .faulted .fetchOutOfRange })
  ∧ (∀ (s : State) (hi lo : Byte), AtPc s [0x60, hi, lo] →
      step s = exec (.jmp (BitVec.ofNat 16 (hi.toNat * 256 + lo.toNat))) s)
  ∧ (∀ (s : State) (target : Word16), s.plen.toNat ≤ target.toNat →
      exec (.jmp target) s = .next { s with status := .faulted .jumpOutOfRange })
  ∧ (∀ (s : State) (target : Word16), target.toNat < s.plen.toNat →
      exec (.jmp target) s = .next { s with pc := target, status := .success })

/-- In every state EXIT completes: EXITF is 1, STATUS is Exited, and PC, the stack, PROG, PLEN, MEM and SP are as
before; a step with the byte 61 at PC does so; finished is then true and a further step holds. (R121, R135; that a
further step holds is not R121's: it is a choice, R136 by the spec's decision D15, log entry 4.) Rests on
45_control.md; 48_host_operations.md sections 1 and 2. -/
def Obligations.ExitFollowsItsRule : Prop :=
  (∀ s : State, exec .exit s = .next { s with exitf := true, status := .exited })
  ∧ ∀ s : State, AtPc s [0x61] →
      ∃ t, step s = .next t ∧ t = { s with exitf := true, status := .exited } ∧ t.finished = true ∧ step t = .next t

/-- From a state with 60 hi lo at PC whose target is PC itself, any number of steps answers that same state, with STATUS
Success. Rests on 45_control.md; 70_reset_and_hazards.md section 3. -/
def Obligations.JumpToItselfLoopsForEver : Prop :=
  ∀ (s : State) (hi lo : Byte) (n : Nat), AtPc s [0x60, hi, lo] → s.pc.toNat = hi.toNat * 256 + lo.toNat →
    runSteps n s = .next s

/-- For all finite binary32, and all finite binary64, operands: fadd gives the pattern nearest to the exact rational
sum, a tie going to the even pattern, overflow to infinity, subnormals at their value, with the sign of the sum; an
exact zero is negative exactly when both operands are negative (the model's reading of the IEEE 754 rule for the
sign of zero, log entry 7). Rests on 41_arithmetic.md section 4; 93_implementation_defined.md section 2. -/
def Obligations.FloatSumIsCorrectlyRounded : Prop :=
  (∀ a b : BitVec 32, IsFinite Config.binary32 a.toNat → IsFinite Config.binary32 b.toNat →
      let x := signedValue Config.binary32 a.toNat + signedValue Config.binary32 b.toNat
      CorrectlyRounded Config.binary32 x (fadd Config.binary32 a b).toNat
        ∧ (x = 0 → (isNeg Config.binary32 (fadd Config.binary32 a b).toNat = true ↔ (isNeg Config.binary32 a.toNat = true ∧ isNeg Config.binary32 b.toNat = true))))
  ∧ (∀ a b : BitVec 64, IsFinite Config.binary64 a.toNat → IsFinite Config.binary64 b.toNat →
      let x := signedValue Config.binary64 a.toNat + signedValue Config.binary64 b.toNat
      CorrectlyRounded Config.binary64 x (fadd Config.binary64 a b).toNat
        ∧ (x = 0 → (isNeg Config.binary64 (fadd Config.binary64 a b).toNat = true ↔ (isNeg Config.binary64 a.toNat = true ∧ isNeg Config.binary64 b.toNat = true))))

/-- For all finite binary32, and all finite binary64, operands: fsub gives the pattern nearest to the exact rational
difference, a tie going to the even pattern, overflow to infinity, subnormals at their value, with the sign of the
difference; an exact zero is negative exactly when the left operand is negative and the right one is not (the
model's reading of the IEEE 754 rule for the sign of zero, log entry 7). Rests on 41_arithmetic.md section 4;
93_implementation_defined.md section 2. -/
def Obligations.FloatDifferenceIsCorrectlyRounded : Prop :=
  (∀ a b : BitVec 32, IsFinite Config.binary32 a.toNat → IsFinite Config.binary32 b.toNat →
      let x := signedValue Config.binary32 a.toNat - signedValue Config.binary32 b.toNat
      CorrectlyRounded Config.binary32 x (fsub Config.binary32 a b).toNat
        ∧ (x = 0 → (isNeg Config.binary32 (fsub Config.binary32 a b).toNat = true ↔ (isNeg Config.binary32 a.toNat = true ∧ isNeg Config.binary32 b.toNat = false))))
  ∧ (∀ a b : BitVec 64, IsFinite Config.binary64 a.toNat → IsFinite Config.binary64 b.toNat →
      let x := signedValue Config.binary64 a.toNat - signedValue Config.binary64 b.toNat
      CorrectlyRounded Config.binary64 x (fsub Config.binary64 a b).toNat
        ∧ (x = 0 → (isNeg Config.binary64 (fsub Config.binary64 a b).toNat = true ↔ (isNeg Config.binary64 a.toNat = true ∧ isNeg Config.binary64 b.toNat = false))))

/-- For all finite binary32, and all finite binary64, operands: fmul gives the pattern nearest to the exact rational
product, a tie going to the even pattern, overflow to infinity, subnormals at their value, with the sign of the
product; a zero product is negative exactly when the operands' signs differ (the model's reading of the IEEE 754
rule for the sign of zero, log entry 7). Rests on 41_arithmetic.md section 4; 93_implementation_defined.md section
2. -/
def Obligations.FloatProductIsCorrectlyRounded : Prop :=
  (∀ a b : BitVec 32, IsFinite Config.binary32 a.toNat → IsFinite Config.binary32 b.toNat →
      let x := signedValue Config.binary32 a.toNat * signedValue Config.binary32 b.toNat
      CorrectlyRounded Config.binary32 x (fmul Config.binary32 a b).toNat
        ∧ (x = 0 → (isNeg Config.binary32 (fmul Config.binary32 a b).toNat = true ↔ (isNeg Config.binary32 a.toNat ≠ isNeg Config.binary32 b.toNat))))
  ∧ (∀ a b : BitVec 64, IsFinite Config.binary64 a.toNat → IsFinite Config.binary64 b.toNat →
      let x := signedValue Config.binary64 a.toNat * signedValue Config.binary64 b.toNat
      CorrectlyRounded Config.binary64 x (fmul Config.binary64 a b).toNat
        ∧ (x = 0 → (isNeg Config.binary64 (fmul Config.binary64 a b).toNat = true ↔ (isNeg Config.binary64 a.toNat ≠ isNeg Config.binary64 b.toNat))))

/-- In binary32 and binary64, for every value of the model's free NaN bits: fadd, fsub and fmul with a NaN operand, the
sum of infinities of unlike sign, the difference of infinities of like sign, and zero times infinity in either order
are NaNs. Rests on 41_arithmetic.md section 4. -/
def Obligations.InvalidFloatOperationsGiveSomeNan : Prop :=
  (∀ a b : BitVec 32, isNaN Config.binary32 a.toNat = true ∨ isNaN Config.binary32 b.toNat = true →
      isNaN Config.binary32 (fadd Config.binary32 a b).toNat = true ∧ isNaN Config.binary32 (fsub Config.binary32 a b).toNat = true
        ∧ isNaN Config.binary32 (fmul Config.binary32 a b).toNat = true)
  ∧ (∀ a b : BitVec 32, isInf Config.binary32 a.toNat = true → isInf Config.binary32 b.toNat = true →
      (isNeg Config.binary32 a.toNat ≠ isNeg Config.binary32 b.toNat → isNaN Config.binary32 (fadd Config.binary32 a b).toNat = true)
        ∧ (isNeg Config.binary32 a.toNat = isNeg Config.binary32 b.toNat → isNaN Config.binary32 (fsub Config.binary32 a b).toNat = true))
  ∧ (∀ a b : BitVec 32, isInf Config.binary32 a.toNat = true → isZero Config.binary32 b.toNat = true →
      isNaN Config.binary32 (fmul Config.binary32 a b).toNat = true ∧ isNaN Config.binary32 (fmul Config.binary32 b a).toNat = true)
  ∧ (∀ a b : BitVec 64, isNaN Config.binary64 a.toNat = true ∨ isNaN Config.binary64 b.toNat = true →
      isNaN Config.binary64 (fadd Config.binary64 a b).toNat = true ∧ isNaN Config.binary64 (fsub Config.binary64 a b).toNat = true
        ∧ isNaN Config.binary64 (fmul Config.binary64 a b).toNat = true)
  ∧ (∀ a b : BitVec 64, isInf Config.binary64 a.toNat = true → isInf Config.binary64 b.toNat = true →
      (isNeg Config.binary64 a.toNat ≠ isNeg Config.binary64 b.toNat → isNaN Config.binary64 (fadd Config.binary64 a b).toNat = true)
        ∧ (isNeg Config.binary64 a.toNat = isNeg Config.binary64 b.toNat → isNaN Config.binary64 (fsub Config.binary64 a b).toNat = true))
  ∧ (∀ a b : BitVec 64, isInf Config.binary64 a.toNat = true → isZero Config.binary64 b.toNat = true →
      isNaN Config.binary64 (fmul Config.binary64 a b).toNat = true ∧ isNaN Config.binary64 (fmul Config.binary64 b a).toNat = true)

/-- In binary32 and binary64, for an infinity a and an operand b that is no NaN: a + b and b + a are a unless b is the
infinity of the other sign; a - b is a, and b - a is the infinity of the sign opposite to a, unless b is the
infinity of the same sign; a * b and b * a are infinite with the exclusive or of the signs unless b is zero. (The
IEEE 754 rules for infinities are named by the spec and taken from general knowledge, log entry 7.) Rests on
41_arithmetic.md section 4. -/
def Obligations.InfiniteOperandsGiveInfinities : Prop :=
  (∀ a b : BitVec 32, isInf Config.binary32 a.toNat = true → isNaN Config.binary32 b.toNat = false →
      (isInf Config.binary32 b.toNat = false ∨ isNeg Config.binary32 a.toNat = isNeg Config.binary32 b.toNat → fadd Config.binary32 a b = a ∧ fadd Config.binary32 b a = a)
        ∧ (isInf Config.binary32 b.toNat = false ∨ isNeg Config.binary32 a.toNat ≠ isNeg Config.binary32 b.toNat → fsub Config.binary32 a b = a)
        ∧ (isInf Config.binary32 b.toNat = false ∨ isNeg Config.binary32 a.toNat ≠ isNeg Config.binary32 b.toNat →
            isInf Config.binary32 (fsub Config.binary32 b a).toNat = true ∧ isNeg Config.binary32 (fsub Config.binary32 b a).toNat = !isNeg Config.binary32 a.toNat)
        ∧ (isZero Config.binary32 b.toNat = false →
            isInf Config.binary32 (fmul Config.binary32 a b).toNat = true ∧ isInf Config.binary32 (fmul Config.binary32 b a).toNat = true
              ∧ isNeg Config.binary32 (fmul Config.binary32 a b).toNat = (isNeg Config.binary32 a.toNat != isNeg Config.binary32 b.toNat)
              ∧ isNeg Config.binary32 (fmul Config.binary32 b a).toNat = (isNeg Config.binary32 a.toNat != isNeg Config.binary32 b.toNat)))
  ∧ (∀ a b : BitVec 64, isInf Config.binary64 a.toNat = true → isNaN Config.binary64 b.toNat = false →
      (isInf Config.binary64 b.toNat = false ∨ isNeg Config.binary64 a.toNat = isNeg Config.binary64 b.toNat → fadd Config.binary64 a b = a ∧ fadd Config.binary64 b a = a)
        ∧ (isInf Config.binary64 b.toNat = false ∨ isNeg Config.binary64 a.toNat ≠ isNeg Config.binary64 b.toNat → fsub Config.binary64 a b = a)
        ∧ (isInf Config.binary64 b.toNat = false ∨ isNeg Config.binary64 a.toNat ≠ isNeg Config.binary64 b.toNat →
            isInf Config.binary64 (fsub Config.binary64 b a).toNat = true ∧ isNeg Config.binary64 (fsub Config.binary64 b a).toNat = !isNeg Config.binary64 a.toNat)
        ∧ (isZero Config.binary64 b.toNat = false →
            isInf Config.binary64 (fmul Config.binary64 a b).toNat = true ∧ isInf Config.binary64 (fmul Config.binary64 b a).toNat = true
              ∧ isNeg Config.binary64 (fmul Config.binary64 a b).toNat = (isNeg Config.binary64 a.toNat != isNeg Config.binary64 b.toNat)
              ∧ isNeg Config.binary64 (fmul Config.binary64 b a).toNat = (isNeg Config.binary64 a.toNat != isNeg Config.binary64 b.toNat)))

/-- For a value of 1, 2, 4 or 8 bytes and every state: Push raises StackOverflow exactly when SP + n is above the
capacity (a raise has no next state, so nothing is written); else it leaves the value on top, most significant byte
at the lowest index, SP n higher (SP = STACK_CAP included), every other byte and every other element unchanged.
Formalises R15. -/
def Obligations.PushWritesTheValueOrOverflows : Prop :=
  ∀ (w : Nat), w ∈ [8, 16, 32, 64] → ∀ (s : State) (v : BitVec w),
    (s.push v = .error .stackOverflow ↔ s.params.stackCap.toNat < s.sp.toNat + w / 8)
    ∧ (s.sp.toNat + w / 8 ≤ s.params.stackCap.toNat → ∃ t, s.push v = .ok t
        ∧ t.sp.toNat = s.sp.toNat + w / 8 ∧ HoldsBE t.stack s.sp.toNat (w / 8) v.toNat
        ∧ SameOutside s.stack t.stack s.sp.toNat (w / 8)
        ∧ t = { s with stack := t.stack, sp := t.sp })

/-- For a value of 1, 2, 4 or 8 bytes and every state: Pop raises StackUnderflow exactly when fewer bytes are on the
stack; where the top n bytes hold v it returns v, lowers SP by n and changes nothing else, and Top returns v; Push
of v and then Pop returns v and restores SP; a two-operand instruction's one check fails exactly below 2n bytes.
Formalises R16. -/
def Obligations.PopReturnsTheTopOrUnderflows : Prop :=
  ∀ (w : Nat), w ∈ [8, 16, 32, 64] → ∀ (s : State) (v : BitVec w),
    (s.pop w = .error .stackUnderflow ↔ s.sp.toNat < w / 8)
    ∧ (w / 8 ≤ s.sp.toNat → HoldsBE s.stack (s.sp.toNat - w / 8) (w / 8) v.toNat →
        s.top w = v ∧ ∃ t, s.pop w = .ok (v, t) ∧ t.sp.toNat = s.sp.toNat - w / 8 ∧ t = { s with sp := t.sp })
    ∧ (∀ t, s.push v = .ok t → ∃ u, t.pop w = .ok (v, u) ∧ u.sp = s.sp)
    ∧ (s.need (2 * (w / 8)) = .error .stackUnderflow ↔ s.sp.toNat < 2 * (w / 8))

/-- After a push of any 16-bit value, a pop of one byte returns its low byte and a second its high byte; after pushes of
two bytes x and y, a pop of 16 bits returns x * 256 + y. Rests on 20_memory.md section 2. -/
def Obligations.MixedWidthAccessSeesTheBytes : Prop :=
  (∀ (s t : State) (v : BitVec 16), s.push v = .ok t →
      ∃ u u', t.pop 8 = .ok (BitVec.ofNat 8 v.toNat, u) ∧ u.pop 8 = .ok (BitVec.ofNat 8 (v.toNat / 256), u')
        ∧ u'.sp = s.sp)
  ∧ ∀ (s t u : State) (x y : Byte), s.push x = .ok t → t.push y = .ok u →
      ∃ z, u.pop 16 = .ok (BitVec.ofNat 16 (x.toNat * 256 + y.toNat), z) ∧ z.sp = s.sp

/-- For n in 1, 2, 4, 8 and every address: MemRead and MemWrite raise MemoryOutOfRange exactly when a + n is above
MEM_SIZE; else MemWrite leaves the value big-endian at a, every other byte of MEM and every other element unchanged,
and MemRead there returns the value's low n bytes. (No instruction uses either.) Rests on 20_memory.md section 4. -/
def Obligations.DataMemoryReadsWhatWasWritten : Prop :=
  ∀ (s : State) (a n v : Nat), n ∈ [1, 2, 4, 8] →
    (s.memRead a n = .error .memoryOutOfRange ↔ s.params.memSize.toNat < a + n)
    ∧ (s.memWrite a n v = .error .memoryOutOfRange ↔ s.params.memSize.toNat < a + n)
    ∧ (a + n ≤ s.params.memSize.toNat → ∃ t, s.memWrite a n v = .ok t
        ∧ HoldsBE t.mem a n v ∧ SameOutside s.mem t.mem a n ∧ t = { s with mem := t.mem }
        ∧ t.memRead a n = .ok (v % 256 ^ n))

/-- After erase PLEN and PC are 0, EXITF is 0, every byte of PROG reads 0x00, and STACK, SP, MEM, STATUS and the
capacities are unchanged. Formalises R130. -/
def Obligations.EraseResetsTheProgramSideOnly : Prop :=
  ∀ s : State, (Command.run .erase s).1 = .nothing ∧
    let t := (Command.run .erase s).2
    t.plen = 0 ∧ t.pc = 0 ∧ t.exitf = false ∧ (∀ a, t.prog.read a = 0)
      ∧ t.stack = s.stack ∧ t.sp = s.sp ∧ t.mem = s.mem ∧ t.status = s.status ∧ t.params = s.params

/-- After clear SP is 0, every byte of STACK and MEM reads 0x00, STATUS is Success, and PROG, PLEN, PC, EXITF and the
capacities are unchanged. Formalises R139. -/
def Obligations.ClearResetsTheEngineSideOnly : Prop :=
  ∀ s : State, let t := (Command.run .clear s).2
    t.sp = 0 ∧ (∀ a, t.stack.read a = 0) ∧ (∀ a, t.mem.read a = 0) ∧ t.status = .success
      ∧ t.prog = s.prog ∧ t.plen = s.plen ∧ t.pc = s.pc ∧ t.exitf = s.exitf ∧ t.params = s.params

/-- After reset PLEN, PC and SP are 0, EXITF is 0, STATUS is Success, and every byte of PROG, STACK and MEM reads 0x00;
erase and clear of any state, in either order, give the reset state for its capacities. (R21, R170; that reset is
this state is the spec's decision D17, log entry 16. The capacities themselves are the model's choice, log entry 1.)
Rests on 10_state.md section 9; 70_reset_and_hazards.md section 1. -/
def Obligations.ResetIsEraseAndClearTogether : Prop :=
  (State.reset.plen = 0 ∧ State.reset.pc = 0 ∧ State.reset.sp = 0 ∧ State.reset.exitf = false
    ∧ State.reset.status = .success ∧ (∀ a, State.reset.prog.read a = 0) ∧ (∀ a, State.reset.stack.read a = 0)
    ∧ (∀ a, State.reset.mem.read a = 0))
  ∧ ∀ s : State, s.erase.clear = State.resetWith s.params ∧ s.clear.erase = State.resetWith s.params

/-- For any 1 to 9 bytes: past the capacity the builder returns CapacityFault and the state is unchanged; else it
returns Appended, the bytes stand at PLEN on in order, PLEN is k higher, every other byte of PROG reads as before,
and PC, EXITF, STATUS, SP, the stack, MEM and the capacities are unchanged. Formalises R142. -/
def Obligations.AppendIsAllOrNothing : Prop :=
  ∀ (s : State) (bs : List Byte), 1 ≤ bs.length → bs.length ≤ 9 →
    (s.params.progCap.toNat < s.plen.toNat + bs.length → s.append bs = (.capacityFault, s))
    ∧ (s.plen.toNat + bs.length ≤ s.params.progCap.toNat → ∃ t, s.append bs = (.appended, t)
        ∧ t.plen.toNat = s.plen.toNat + bs.length
        ∧ (∀ k, (h : k < bs.length) → t.prog.read (s.plen.toNat + k) = bs[k])
        ∧ SameOutside s.prog t.prog s.plen.toNat bs.length
        ∧ t = { s with prog := t.prog, plen := t.plen })

/-- pushBool appends 10 01 or 10 00; the ten other literal builders their opcode byte and the value's bytes, most
significant first; push(opcode) one byte, push(opcode, type) the opcode and the Type id, neither checked; pushJMP 60
and the two bytes of the target, not range-checked. Each returns what Append returns. Formalises R131, R132, R133. -/
def Obligations.BuildersAppendTheirBytes : Prop :=
  (∀ (s : State) (v : Bool), Command.run (.pushBool v) s = appendReply s [0x10, if v then 0x01 else 0x00])
  ∧ (∀ (s : State) (v : BitVec 8), Command.run (.pushU8 v) s = appendReply s (0x11 ::
      [BitVec.ofNat 8 v.toNat]))
  ∧ (∀ (s : State) (v : BitVec 16), Command.run (.pushU16 v) s = appendReply s (0x12 ::
      [BitVec.ofNat 8 (v.toNat / 256), BitVec.ofNat 8 v.toNat]))
  ∧ (∀ (s : State) (v : BitVec 32), Command.run (.pushU32 v) s = appendReply s (0x13 ::
      [BitVec.ofNat 8 (v.toNat / 16777216), BitVec.ofNat 8 (v.toNat / 65536), BitVec.ofNat 8 (v.toNat / 256), BitVec.ofNat 8 v.toNat]))
  ∧ (∀ (s : State) (v : BitVec 64), Command.run (.pushU64 v) s = appendReply s (0x14 ::
      [BitVec.ofNat 8 (v.toNat / 72057594037927936), BitVec.ofNat 8 (v.toNat / 281474976710656), BitVec.ofNat 8 (v.toNat / 1099511627776), BitVec.ofNat 8 (v.toNat / 4294967296), BitVec.ofNat 8 (v.toNat / 16777216), BitVec.ofNat 8 (v.toNat / 65536), BitVec.ofNat 8 (v.toNat / 256), BitVec.ofNat 8 v.toNat]))
  ∧ (∀ (s : State) (v : BitVec 8), Command.run (.pushS8 v) s = appendReply s (0x15 ::
      [BitVec.ofNat 8 v.toNat]))
  ∧ (∀ (s : State) (v : BitVec 16), Command.run (.pushS16 v) s = appendReply s (0x16 ::
      [BitVec.ofNat 8 (v.toNat / 256), BitVec.ofNat 8 v.toNat]))
  ∧ (∀ (s : State) (v : BitVec 32), Command.run (.pushS32 v) s = appendReply s (0x17 ::
      [BitVec.ofNat 8 (v.toNat / 16777216), BitVec.ofNat 8 (v.toNat / 65536), BitVec.ofNat 8 (v.toNat / 256), BitVec.ofNat 8 v.toNat]))
  ∧ (∀ (s : State) (v : BitVec 64), Command.run (.pushS64 v) s = appendReply s (0x18 ::
      [BitVec.ofNat 8 (v.toNat / 72057594037927936), BitVec.ofNat 8 (v.toNat / 281474976710656), BitVec.ofNat 8 (v.toNat / 1099511627776), BitVec.ofNat 8 (v.toNat / 4294967296), BitVec.ofNat 8 (v.toNat / 16777216), BitVec.ofNat 8 (v.toNat / 65536), BitVec.ofNat 8 (v.toNat / 256), BitVec.ofNat 8 v.toNat]))
  ∧ (∀ (s : State) (v : BitVec 32), Command.run (.pushF32 v) s = appendReply s (0x19 ::
      [BitVec.ofNat 8 (v.toNat / 16777216), BitVec.ofNat 8 (v.toNat / 65536), BitVec.ofNat 8 (v.toNat / 256), BitVec.ofNat 8 v.toNat]))
  ∧ (∀ (s : State) (v : BitVec 64), Command.run (.pushF64 v) s = appendReply s (0x1A ::
      [BitVec.ofNat 8 (v.toNat / 72057594037927936), BitVec.ofNat 8 (v.toNat / 281474976710656), BitVec.ofNat 8 (v.toNat / 1099511627776), BitVec.ofNat 8 (v.toNat / 4294967296), BitVec.ofNat 8 (v.toNat / 16777216), BitVec.ofNat 8 (v.toNat / 65536), BitVec.ofNat 8 (v.toNat / 256), BitVec.ofNat 8 v.toNat]))
  ∧ (∀ (s : State) (op : Byte), Command.run (.push op) s = appendReply s [op])
  ∧ (∀ (s : State) (op : Byte) (t : Ty), Command.run (.pushTyped op t) s = appendReply s [op,
      match t with
      | .bool => 0x00 | .u8 => 0x01 | .u16 => 0x02 | .u32 => 0x03 | .u64 => 0x04 | .s8 => 0x05 | .s16 => 0x06
      | .s32 => 0x07 | .s64 => 0x08 | .f32 => 0x09 | .f64 => 0x0A])
  ∧ (∀ (s : State) (target : Word16), Command.run (.pushJmp target) s
      = appendReply s [0x60, BitVec.ofNat 8 (target.toNat / 256), BitVec.ofNat 8 target.toNat])

/-- getLine returns PC; finished returns whether PC is at or above PLEN or EXITF is set, which in a state that meets the
invariant is PC equal to PLEN or EXITF set; neither, nor printOpcodeAt nor a name lookup, changes the state.
Formalises R134, R135, R141. -/
def Obligations.QueriesAnswerAndChangeNothing : Prop :=
  ∀ s : State, Command.run .getLine s = (.line s.pc, s)
    ∧ Command.run .finished s = (.truth (decide (s.plen.toNat ≤ s.pc.toNat ∨ s.exitf = true)), s)
    ∧ (s.wf = true → (s.finished = true ↔ s.pc = s.plen ∨ s.exitf = true))
    ∧ (∀ a, (Command.run (.printOpcodeAt a) s).2 = s) ∧ (∀ op, (Command.run (.opcodeName op) s).2 = s)
    ∧ (∀ st, (Command.run (.statusName st) s).2 = s)

/-- For each of the eleven Types, where the top width(T) bytes hold v: read<T> returns v as an unsigned number, as two's
complement, as the float's pattern, or as whether it is not zero; in every state, with too few bytes too (the value
is then unspecified), the state is unchanged. Formalises R138. -/
def Obligations.ReadReturnsTheTopAsItsType : Prop :=
  ∀ (s : State) (draw : Nat), (∀ t : Ty, (Command.run (.read t draw) s).2 = s)
    ∧ (∀ v : BitVec 8, 1 ≤ s.sp.toNat → HoldsBE s.stack (s.sp.toNat - 1) 1 v.toNat →
      Command.run (.read .bool draw) s = (.value (.boolean (decide (v ≠ 0))), s))
    ∧ (∀ v : BitVec 8, 1 ≤ s.sp.toNat → HoldsBE s.stack (s.sp.toNat - 1) 1 v.toNat →
      Command.run (.read .u8 draw) s = (.value (.unsigned v.toNat), s))
    ∧ (∀ v : BitVec 16, 2 ≤ s.sp.toNat → HoldsBE s.stack (s.sp.toNat - 2) 2 v.toNat →
      Command.run (.read .u16 draw) s = (.value (.unsigned v.toNat), s))
    ∧ (∀ v : BitVec 32, 4 ≤ s.sp.toNat → HoldsBE s.stack (s.sp.toNat - 4) 4 v.toNat →
      Command.run (.read .u32 draw) s = (.value (.unsigned v.toNat), s))
    ∧ (∀ v : BitVec 64, 8 ≤ s.sp.toNat → HoldsBE s.stack (s.sp.toNat - 8) 8 v.toNat →
      Command.run (.read .u64 draw) s = (.value (.unsigned v.toNat), s))
    ∧ (∀ v : BitVec 8, 1 ≤ s.sp.toNat → HoldsBE s.stack (s.sp.toNat - 1) 1 v.toNat →
      Command.run (.read .s8 draw) s = (.value (.signed v.toInt), s))
    ∧ (∀ v : BitVec 16, 2 ≤ s.sp.toNat → HoldsBE s.stack (s.sp.toNat - 2) 2 v.toNat →
      Command.run (.read .s16 draw) s = (.value (.signed v.toInt), s))
    ∧ (∀ v : BitVec 32, 4 ≤ s.sp.toNat → HoldsBE s.stack (s.sp.toNat - 4) 4 v.toNat →
      Command.run (.read .s32 draw) s = (.value (.signed v.toInt), s))
    ∧ (∀ v : BitVec 64, 8 ≤ s.sp.toNat → HoldsBE s.stack (s.sp.toNat - 8) 8 v.toNat →
      Command.run (.read .s64 draw) s = (.value (.signed v.toInt), s))
    ∧ (∀ v : BitVec 32, 4 ≤ s.sp.toNat → HoldsBE s.stack (s.sp.toNat - 4) 4 v.toNat →
      Command.run (.read .f32 draw) s = (.value (.binary32 v), s))
    ∧ (∀ v : BitVec 64, 8 ≤ s.sp.toNat → HoldsBE s.stack (s.sp.toNat - 8) 8 v.toNat →
      Command.run (.read .f64 draw) s = (.value (.binary64 v), s))

/-- If cleanRun with some fuel ends with a status in a state, there is a number of steps from 1 to the fuel that leads
to that state, with that status, not Success, while every fewer steps (at least one) lead to a state with status
Success; if it does not end, that many steps lead to its state and every one of them gave Success. (R137 gives
cleanRun no bound: the fuel, and so the clause on a cleanRun that does not end, is the model's choice, log entry
10.) Rests on 48_host_operations.md section 2. -/
def Obligations.CleanRunIsStepsUntilNotSuccess : Prop :=
  ∀ (fuel : Nat) (s : State),
    (∀ st t, State.cleanRun fuel s = (some st, t) →
      st ≠ .success ∧ t.status = st ∧ ∃ n, 1 ≤ n ∧ n ≤ fuel ∧ runSteps n s = .next t
        ∧ ∀ m, 1 ≤ m → m < n → ∃ u, runSteps m s = .next u ∧ u.status = .success)
    ∧ (∀ t, State.cleanRun fuel s = (none, t) → runSteps fuel s = .next t
        ∧ ∀ m, 1 ≤ m → m ≤ fuel → ∃ u, runSteps m s = .next u ∧ u.status = .success)

/-- For every instruction, in a state with STATUS Success and PC equal to PLEN (the empty program after reset is one):
if its bytes fit, appending them returns Appended and the next step is exec of that instruction. Rests on
20_memory.md section 7; 48_host_operations.md section 1. -/
def Obligations.AppendedInstructionIsTheNextToRun : Prop :=
  ∀ (s : State) (i : Instr), s.status = .success → s.pc = s.plen →
    s.plen.toNat + (encode i).length ≤ s.params.progCap.toNat →
    ∃ t, s.append (encode i) = (.appended, t) ∧ step t = exec i t
end

