-- ==== Sys2Proof/Laws/PerInstr.lean ====
section
/-! SUPPORT. For every instruction: the encoder's bytes are well formed by the ranges of WellFormed.lean, which are written
without the encoder's words (R50 to R55, R87). -/

namespace Sys2Proof.Laws.EncodingWellFormed

/-- The bytes of an instruction are those of exactly one valid instruction. -/
def Statement (i : Instr) : Prop := wellFormedBytes (encode i) = true

theorem pushBool (imm) : Statement (.pushBool imm) := rfl
theorem pushU8 (imm) : Statement (.pushU8 imm) := rfl
theorem pushU16 (imm) : Statement (.pushU16 imm) := rfl
theorem pushU32 (imm) : Statement (.pushU32 imm) := rfl
theorem pushU64 (imm) : Statement (.pushU64 imm) := rfl
theorem pushS8 (imm) : Statement (.pushS8 imm) := rfl
theorem pushS16 (imm) : Statement (.pushS16 imm) := rfl
theorem pushS32 (imm) : Statement (.pushS32 imm) := rfl
theorem pushS64 (imm) : Statement (.pushS64 imm) := rfl
theorem pushF32 (imm) : Statement (.pushF32 imm) := rfl
theorem pushF64 (imm) : Statement (.pushF64 imm) := rfl
theorem addU8 : Statement .addU8 := rfl
theorem addU16 : Statement .addU16 := rfl
theorem addU32 : Statement .addU32 := rfl
theorem addU64 : Statement .addU64 := rfl
theorem addS8 : Statement .addS8 := rfl
theorem addS16 : Statement .addS16 := rfl
theorem addS32 : Statement .addS32 := rfl
theorem addS64 : Statement .addS64 := rfl
theorem addF32 : Statement .addF32 := rfl
theorem addF64 : Statement .addF64 := rfl
theorem subU8 : Statement .subU8 := rfl
theorem subU16 : Statement .subU16 := rfl
theorem subU32 : Statement .subU32 := rfl
theorem subU64 : Statement .subU64 := rfl
theorem subS8 : Statement .subS8 := rfl
theorem subS16 : Statement .subS16 := rfl
theorem subS32 : Statement .subS32 := rfl
theorem subS64 : Statement .subS64 := rfl
theorem subF32 : Statement .subF32 := rfl
theorem subF64 : Statement .subF64 := rfl
theorem mulU8 : Statement .mulU8 := rfl
theorem mulU16 : Statement .mulU16 := rfl
theorem mulU32 : Statement .mulU32 := rfl
theorem mulU64 : Statement .mulU64 := rfl
theorem mulS8 : Statement .mulS8 := rfl
theorem mulS16 : Statement .mulS16 := rfl
theorem mulS32 : Statement .mulS32 := rfl
theorem mulS64 : Statement .mulS64 := rfl
theorem mulF32 : Statement .mulF32 := rfl
theorem mulF64 : Statement .mulF64 := rfl
theorem cmpEqBool : Statement .cmpEqBool := rfl
theorem cmpEqU8 : Statement .cmpEqU8 := rfl
theorem cmpEqU16 : Statement .cmpEqU16 := rfl
theorem cmpEqU32 : Statement .cmpEqU32 := rfl
theorem cmpEqU64 : Statement .cmpEqU64 := rfl
theorem cmpEqS8 : Statement .cmpEqS8 := rfl
theorem cmpEqS16 : Statement .cmpEqS16 := rfl
theorem cmpEqS32 : Statement .cmpEqS32 := rfl
theorem cmpEqS64 : Statement .cmpEqS64 := rfl
theorem cmpEqF32 : Statement .cmpEqF32 := rfl
theorem cmpEqF64 : Statement .cmpEqF64 := rfl
theorem bwAndX8 : Statement .bwAndX8 := rfl
theorem bwAndX16 : Statement .bwAndX16 := rfl
theorem bwAndX32 : Statement .bwAndX32 := rfl
theorem bwAndX64 : Statement .bwAndX64 := rfl
theorem logicAnd : Statement .logicAnd := rfl
theorem logicOr : Statement .logicOr := rfl
theorem jmp (target) : Statement (.jmp target) := rfl
theorem exit : Statement .exit := rfl

end Sys2Proof.Laws.EncodingWellFormed
end

