-- ==== Sys2Proof/Tests/Slice0.lean ====
section
/-! SUPPORT. The model's own tests: the checks of WellFormed.lean refuse ill-formed terms, every constructor decodes
from bytes written out from spec/30_encoding.md R50 to R54, one or two steps per instruction with the expected values of
spec/95_test_vectors.md (or of the corner cases of the instruction's rule), and for every obligation with hypotheses a
concrete state that meets them. -/

namespace Sys2Proof.Tests

set_option Elab.async false

open Sys2Proof Sys2Proof.Machine

/-! ### Helpers -/

/-- A reset machine with given capacities, a program appended and a stack filled. -/
def loadWith (p : Params) (prog stack : List Byte) : State :=
  { State.resetWith p with
    prog := Memory.zero.writeBytes 0 prog, plen := BitVec.ofNat 16 prog.length
    stack := Memory.zero.writeBytes 0 stack, sp := BitVec.ofNat 16 stack.length }

/-- The same with the capacities of the test vectors. -/
def load (prog stack : List Byte) : State := loadWith Config.vectorParams prog stack

/-- The occupied stack bytes, `PC` and `STATUS` after one step. -/
def outcome (s : State) : Option (List Byte × Nat × Status) :=
  match step s with
  | .next t => some (t.stack.readBytes 0 t.sp.toNat, t.pc.toNat, t.status)
  | .fault _ => none
  | .refused _ => none

/-- The same for a program and a stack. -/
def after (prog stack : List Byte) : Option (List Byte × Nat × Status) := outcome (load prog stack)

/-- The instruction that bytes are, with nothing left over. -/
def reads (bs : List Byte) : Option Instr :=
  match decode bs with
  | .ok (i, []) => some i
  | _ => none

/-- The state after a step. -/
def next (s : State) : State := s.stepped

/-! ### What WellFormed.lean refuses -/

theorem test_wf_refuses_no_bytes : wellFormedBytes [] = false := by decide +kernel

theorem test_wf_refuses_unknown_opcodes :
    wellFormedBytes [0x00] = false ∧ wellFormedBytes [0x1B] = false ∧ wellFormedBytes [0xFF] = false :=
  by decide +kernel

theorem test_wf_refuses_short_payload :
    wellFormedBytes [0x12, 0x00] = false ∧ wellFormedBytes [0x60, 0xFF] = false ∧ wellFormedBytes [0x20] = false :=
  by decide +kernel

theorem test_wf_refuses_long_payload :
    wellFormedBytes [0x11, 0x01, 0x61] = false ∧ wellFormedBytes [0x61, 0x61] = false :=
  by decide +kernel

theorem test_wf_refuses_unknown_type_byte :
    wellFormedBytes [0x20, 0x0B] = false ∧ wellFormedBytes [0x50, 0xFF] = false :=
  by decide +kernel

theorem test_wf_refuses_bool_arithmetic :
    wellFormedBytes [0x20, 0x00] = false ∧ wellFormedBytes [0x22, 0x00] = false ∧ wellFormedBytes [0x50, 0x00] = true :=
  by decide +kernel

theorem test_wf_refuses_empty_capacities :
    Params.wf ⟨0, 64, 256⟩ = false ∧ Params.wf ⟨64, 64, 0⟩ = false ∧ Params.wf ⟨1, 0, 1⟩ = true :=
  by decide +kernel

theorem test_wf_refuses_bad_states :
    State.wf { State.reset with pc := 1 } = false ∧ State.wf { State.reset with sp := 65 } = false
      ∧ State.wf { State.reset with plen := 257 } = false
      ∧ State.wf { State.reset with status := .faulted .memoryOutOfRange } = false
      ∧ State.wf { State.reset with mem := ⟨[(3, 0)]⟩ } = false
      ∧ State.wf { State.reset with mem := ⟨[(3, 1), (2, 1)]⟩ } = false
      ∧ State.wf { State.reset with stack := ⟨[(64, 1)]⟩ } = false :=
  by decide +kernel

/-! ### Decoding, from the encodings of R50 to R54 -/

theorem test_decode_pushes :
    [[0x10, 0x01], [0x11, 0xFF], [0x12, 0x12, 0x34], [0x13, 0xDE, 0xAD, 0xBE, 0xEF],
      [0x14, 0x01, 0x23, 0x45, 0x67, 0x89, 0xAB, 0xCD, 0xEF], [0x15, 0x80], [0x16, 0xFF, 0x9C],
      [0x17, 0xFF, 0xFF, 0xFF, 0xFE], [0x18, 0x80, 0x00, 0x00, 0x00, 0x00, 0x00, 0x00, 0x01],
      [0x19, 0x7F, 0xC0, 0x00, 0x00], [0x1A, 0x3F, 0xF8, 0x00, 0x00, 0x00, 0x00, 0x00, 0x00]].map reads
    = [some (.pushBool 0x01), some (.pushU8 0xFF), some (.pushU16 0x1234), some (.pushU32 0xDEADBEEF),
      some (.pushU64 0x0123456789ABCDEF), some (.pushS8 0x80), some (.pushS16 0xFF9C), some (.pushS32 0xFFFFFFFE),
      some (.pushS64 0x8000000000000001), some (.pushF32 0x7FC00000), some (.pushF64 0x3FF8000000000000)] :=
  by decide +kernel

theorem test_decode_add :
    [[0x20, 0x01], [0x20, 0x02], [0x20, 0x03], [0x20, 0x04], [0x20, 0x05], [0x20, 0x06], [0x20, 0x07], [0x20, 0x08], [0x20, 0x09], [0x20, 0x0A]].map reads
    = [some .addU8, some .addU16, some .addU32,
      some .addU64, some .addS8, some .addS16, some .addS32,
      some .addS64, some .addF32, some .addF64] :=
  by decide +kernel

theorem test_decode_sub :
    [[0x21, 0x01], [0x21, 0x02], [0x21, 0x03], [0x21, 0x04], [0x21, 0x05], [0x21, 0x06], [0x21, 0x07], [0x21, 0x08], [0x21, 0x09], [0x21, 0x0A]].map reads
    = [some .subU8, some .subU16, some .subU32,
      some .subU64, some .subS8, some .subS16, some .subS32,
      some .subS64, some .subF32, some .subF64] :=
  by decide +kernel

theorem test_decode_mul :
    [[0x22, 0x01], [0x22, 0x02], [0x22, 0x03], [0x22, 0x04], [0x22, 0x05], [0x22, 0x06], [0x22, 0x07], [0x22, 0x08], [0x22, 0x09], [0x22, 0x0A]].map reads
    = [some .mulU8, some .mulU16, some .mulU32,
      some .mulU64, some .mulS8, some .mulS16, some .mulS32,
      some .mulS64, some .mulF32, some .mulF64] :=
  by decide +kernel

theorem test_decode_cmp_eq :
    [[0x50, 0x00], [0x50, 0x01], [0x50, 0x02], [0x50, 0x03], [0x50, 0x04], [0x50, 0x05], [0x50, 0x06], [0x50, 0x07], [0x50, 0x08], [0x50, 0x09], [0x50, 0x0A]].map reads
    = [some .cmpEqBool, some .cmpEqU8, some .cmpEqU16, some .cmpEqU32,
      some .cmpEqU64, some .cmpEqS8, some .cmpEqS16, some .cmpEqS32,
      some .cmpEqS64, some .cmpEqF32, some .cmpEqF64] :=
  by decide +kernel

theorem test_decode_one_byte_opcodes :
    [[0x30], [0x31], [0x32], [0x33], [0x40], [0x41], [0x61]].map reads
    = [some .bwAndX8, some .bwAndX16, some .bwAndX32, some .bwAndX64, some .logicAnd, some .logicOr, some .exit] :=
  by decide +kernel

theorem test_decode_jmp :
    reads [0x60, 0x00, 0x0B] = some (.jmp 11) ∧ reads [0x60, 0xFF, 0x01] = some (.jmp 0xFF01) :=
  by decide +kernel

theorem test_decode_refuses :
    decode [0x07] = .error .invalidOpcode ∧ decode [0x20, 0x0B] = .error .invalidOpcode
      ∧ decode [0x21, 0x00] = .error .invalidOpcode ∧ decode [0x60, 0xFF] = .error .fetchOutOfRange
      ∧ decode [0x20] = .error .fetchOutOfRange ∧ decode [] = .error .fetchOutOfRange :=
  by decide +kernel

theorem test_table_words :
    decodeTableWord 8 0x61 = some .exit ∧ decodeTableWord 16 0x2001 = some .addU8
      ∧ decodeTableWord 16 0x500A = some .cmpEqF64 ∧ decodeTableWord 8 0x60 = some (.jmp 0)
      ∧ decodeTableWord 24 0x0B0060 = some (.jmp 0x000B) ∧ decodeTableWord 16 0x2000 = none
      ∧ decodeTableWord 8 0x00 = none :=
  by decide +kernel

theorem test_fetch_word_runs :
    outcome (State.reset.withFetchWord 8 0x61) = some ([], 0, .exited)
      ∧ outcome (State.reset.withFetchWord 16 0x2001) = some ([], 0, .faulted .stackUnderflow)
      ∧ outcome (State.reset.withFetchWord 16 0x0711) = some ([0x07], 2, .success) :=
  by decide +kernel

/-! ### One step of each instruction (95_test_vectors.md sections 1 and 2) -/

theorem test_push_bool :
    after [0x10, 0x01] [] = some ([0x01], 2, .success)
      ∧ after [0x10, 0x02] [] = some ([0x02], 2, .success) :=
  by decide +kernel

theorem test_push_u8 : after [0x11, 0xFF] [] = some ([0xFF], 2, .success) := by decide +kernel

theorem test_push_u16 : after [0x12, 0x12, 0x34] [] = some ([0x12, 0x34], 3, .success) := by decide +kernel

theorem test_push_u32 :
    after [0x13, 0xDE, 0xAD, 0xBE, 0xEF] [0xAA] = some ([0xAA, 0xDE, 0xAD, 0xBE, 0xEF], 5, .success) :=
  by decide +kernel

theorem test_push_u64 :
    after [0x14, 0x01, 0x23, 0x45, 0x67, 0x89, 0xAB, 0xCD, 0xEF] [] = some ([0x01, 0x23, 0x45, 0x67, 0x89, 0xAB, 0xCD, 0xEF], 9, .success) :=
  by decide +kernel

theorem test_push_s8 : after [0x15, 0x80] [] = some ([0x80], 2, .success) := by decide +kernel

theorem test_push_s16 : after [0x16, 0xFF, 0x9C] [] = some ([0xFF, 0x9C], 3, .success) := by decide +kernel

theorem test_push_s32 :
    after [0x17, 0xFF, 0xFF, 0xFF, 0xFF] [] = some ([0xFF, 0xFF, 0xFF, 0xFF], 5, .success) :=
  by decide +kernel

theorem test_push_s64 :
    after [0x18, 0x80, 0x00, 0x00, 0x00, 0x00, 0x00, 0x00, 0x00] [] = some ([0x80, 0x00, 0x00, 0x00, 0x00, 0x00, 0x00, 0x00], 9, .success) :=
  by decide +kernel

theorem test_push_f32 :
    after [0x19, 0x7F, 0xC0, 0x00, 0x00] [] = some ([0x7F, 0xC0, 0x00, 0x00], 5, .success) :=
  by decide +kernel

theorem test_push_f64 :
    after [0x1A, 0x3F, 0xF8, 0x00, 0x00, 0x00, 0x00, 0x00, 0x00] [] = some ([0x3F, 0xF8, 0x00, 0x00, 0x00, 0x00, 0x00, 0x00], 9, .success) :=
  by decide +kernel

theorem test_push_overflow :
    outcome (loadWith ⟨1, 64, 256⟩ [0x11, 0x07] [0x05]) = some ([0x05], 0, .faulted .stackOverflow) :=
  by decide +kernel

theorem test_push_exact_fill :
    outcome (loadWith ⟨3, 64, 256⟩ [0x12, 0x00, 0x03] [0x01]) = some ([0x01, 0x00, 0x03], 3, .success) :=
  by decide +kernel

theorem test_add_u8 :
    after [0x20, 0x01] [0xC8, 0x64] = some ([0x2C], 2, .success)
      ∧ after [0x20, 0x01] [0x01] = some ([0x01], 0, .faulted .stackUnderflow) :=
  by decide +kernel

theorem test_add_u16 :
    after [0x20, 0x02] [0xFF, 0xFF, 0x00, 0x01] = some ([0x00, 0x00], 2, .success)
      ∧ after [0x20, 0x02] [0x01, 0x02, 0x03] = some ([0x01, 0x02, 0x03], 0, .faulted .stackUnderflow) :=
  by decide +kernel

theorem test_add_u32 :
    after [0x20, 0x03] [0x12, 0x34, 0x56, 0x78, 0xF0, 0x00, 0x00, 0x00] = some ([0x02, 0x34, 0x56, 0x78], 2, .success) :=
  by decide +kernel

theorem test_add_u64 :
    after [0x20, 0x04] [0xFF, 0xFF, 0xFF, 0xFF, 0xFF, 0xFF, 0xFF, 0xFF, 0x00, 0x00, 0x00, 0x00, 0x00, 0x00, 0x00, 0x01] = some ([0x00, 0x00, 0x00, 0x00, 0x00, 0x00, 0x00, 0x00], 2, .success) :=
  by decide +kernel

theorem test_add_s8 :
    after [0x20, 0x05] [0x7F, 0x01] = some ([0x80], 2, .success)
      ∧ after [0x20, 0x05] [0xFF, 0x01] = some ([0x00], 2, .success) :=
  by decide +kernel

theorem test_add_s16 :
    after [0x20, 0x06] [0x7F, 0xFF, 0x00, 0x01] = some ([0x80, 0x00], 2, .success) :=
  by decide +kernel

theorem test_add_s32 :
    after [0x20, 0x07] [0x7F, 0xFF, 0xFF, 0xFF, 0x00, 0x00, 0x00, 0x01] = some ([0x80, 0x00, 0x00, 0x00], 2, .success) :=
  by decide +kernel

theorem test_add_s64 :
    after [0x20, 0x08] [0x7F, 0xFF, 0xFF, 0xFF, 0xFF, 0xFF, 0xFF, 0xFF, 0x00, 0x00, 0x00, 0x00, 0x00, 0x00, 0x00, 0x01] = some ([0x80, 0x00, 0x00, 0x00, 0x00, 0x00, 0x00, 0x00], 2, .success) :=
  by decide +kernel

theorem test_add_f32 :
    after [0x20, 0x09] [0x3D, 0xCC, 0xCC, 0xCD, 0x3E, 0x4C, 0xCC, 0xCD] = some ([0x3E, 0x99, 0x99, 0x9A], 2, .success)
      ∧ after [0x20, 0x09] [0x7F, 0x7F, 0xFF, 0xFF, 0x7F, 0x7F, 0xFF, 0xFF] = some ([0x7F, 0x80, 0x00, 0x00], 2, .success) :=
  by decide +kernel

theorem test_add_f64 :
    after [0x20, 0x0A] [0x3F, 0xB9, 0x99, 0x99, 0x99, 0x99, 0x99, 0x9A, 0x3F, 0xC9, 0x99, 0x99, 0x99, 0x99, 0x99, 0x9A] = some ([0x3F, 0xD3, 0x33, 0x33, 0x33, 0x33, 0x33, 0x34], 2, .success) :=
  by decide +kernel

theorem test_sub_u8 :
    after [0x21, 0x01] [0x05, 0x0A] = some ([0xFB], 2, .success)
      ∧ after [0x21, 0x01] [0x0A, 0x05] = some ([0x05], 2, .success) :=
  by decide +kernel

theorem test_sub_u16 :
    after [0x21, 0x02] [0x00, 0x00, 0x00, 0x01] = some ([0xFF, 0xFF], 2, .success) :=
  by decide +kernel

theorem test_sub_u32 :
    after [0x21, 0x03] [0x80, 0x00, 0x00, 0x00, 0x00, 0x00, 0x00, 0x01] = some ([0x7F, 0xFF, 0xFF, 0xFF], 2, .success) :=
  by decide +kernel

theorem test_sub_u64 :
    after [0x21, 0x04] [0x00, 0x00, 0x00, 0x00, 0x00, 0x00, 0x00, 0x00, 0x00, 0x00, 0x00, 0x00, 0x00, 0x00, 0x00, 0x01] = some ([0xFF, 0xFF, 0xFF, 0xFF, 0xFF, 0xFF, 0xFF, 0xFF], 2, .success) :=
  by decide +kernel

theorem test_sub_s8 :
    after [0x21, 0x05] [0x80, 0x01] = some ([0x7F], 2, .success)
      ∧ after [0x21, 0x05] [0x01, 0x02] = some ([0xFF], 2, .success) :=
  by decide +kernel

theorem test_sub_s16 :
    after [0x21, 0x06] [0x00, 0x64, 0x00, 0xC8] = some ([0xFF, 0x9C], 2, .success)
      ∧ after [0x21, 0x06] [0x80, 0x00, 0x00, 0x01] = some ([0x7F, 0xFF], 2, .success) :=
  by decide +kernel

theorem test_sub_s32 :
    after [0x21, 0x07] [0x80, 0x00, 0x00, 0x00, 0x00, 0x00, 0x00, 0x01] = some ([0x7F, 0xFF, 0xFF, 0xFF], 2, .success) :=
  by decide +kernel

theorem test_sub_s64 :
    after [0x21, 0x08] [0x80, 0x00, 0x00, 0x00, 0x00, 0x00, 0x00, 0x00, 0x00, 0x00, 0x00, 0x00, 0x00, 0x00, 0x00, 0x01] = some ([0x7F, 0xFF, 0xFF, 0xFF, 0xFF, 0xFF, 0xFF, 0xFF], 2, .success) :=
  by decide +kernel

theorem test_sub_f32 :
    after [0x21, 0x09] [0x3F, 0xC0, 0x00, 0x00, 0x40, 0x10, 0x00, 0x00] = some ([0xBF, 0x40, 0x00, 0x00], 2, .success) :=
  by decide +kernel

theorem test_sub_f32_inf_minus_inf :
    (next (load [0x21, 0x09] [0x7F, 0x80, 0x00, 0x00, 0x7F, 0x80, 0x00, 0x00])).status = .success
      ∧ (next (load [0x21, 0x09] [0x7F, 0x80, 0x00, 0x00, 0x7F, 0x80, 0x00, 0x00])).sp = 4 :=
  by decide +kernel

theorem test_sub_f64 :
    after [0x21, 0x0A] [0x3F, 0xF8, 0x00, 0x00, 0x00, 0x00, 0x00, 0x00, 0x40, 0x02, 0x00, 0x00, 0x00, 0x00, 0x00, 0x00] = some ([0xBF, 0xE8, 0x00, 0x00, 0x00, 0x00, 0x00, 0x00], 2, .success)
      ∧ after [0x21, 0x0A] [0x3F, 0xF0, 0x00, 0x00, 0x00, 0x00, 0x00, 0x00, 0x7F, 0xF0, 0x00, 0x00, 0x00, 0x00, 0x00, 0x00] = some ([0xFF, 0xF0, 0x00, 0x00, 0x00, 0x00, 0x00, 0x00], 2, .success) :=
  by decide +kernel

theorem test_mul_u8 :
    after [0x22, 0x01] [0xFA, 0x03] = some ([0xEE], 2, .success)
      ∧ after [0x22, 0x01] [0x10, 0x10] = some ([0x00], 2, .success) :=
  by decide +kernel

theorem test_mul_u16 :
    after [0x22, 0x02] [0xFF, 0xFF, 0xFF, 0xFF] = some ([0x00, 0x01], 2, .success) :=
  by decide +kernel

theorem test_mul_u32 :
    after [0x22, 0x03] [0x12, 0x34, 0x56, 0x78, 0x9A, 0xBC, 0xDE, 0xF0] = some ([0x24, 0x2D, 0x20, 0x80], 2, .success) :=
  by decide +kernel

theorem test_mul_u64 :
    after [0x22, 0x04] [0x01, 0x23, 0x45, 0x67, 0x89, 0xAB, 0xCD, 0xEF, 0xFE, 0xDC, 0xBA, 0x98, 0x76, 0x54, 0x32, 0x10] = some ([0x22, 0x36, 0xD8, 0x8F, 0xE5, 0x61, 0x8C, 0xF0], 2, .success) :=
  by decide +kernel

theorem test_mul_s8 :
    after [0x22, 0x05] [0x80, 0xFF] = some ([0x80], 2, .success)
      ∧ after [0x22, 0x05] [0x03, 0xFD] = some ([0xF7], 2, .success) :=
  by decide +kernel

theorem test_mul_s16 :
    after [0x22, 0x06] [0x03, 0xE8, 0x00, 0x46] = some ([0x11, 0x70], 2, .success)
      ∧ after [0x22, 0x06] [0x80, 0x00, 0x00, 0x02] = some ([0x00, 0x00], 2, .success) :=
  by decide +kernel

theorem test_mul_s32 :
    after [0x22, 0x07] [0x80, 0x00, 0x00, 0x00, 0xFF, 0xFF, 0xFF, 0xFF] = some ([0x80, 0x00, 0x00, 0x00], 2, .success) :=
  by decide +kernel

theorem test_mul_s64 :
    after [0x22, 0x08] [0xFF, 0xFF, 0xFF, 0xFF, 0xFF, 0xFF, 0xFF, 0xFF, 0xFF, 0xFF, 0xFF, 0xFF, 0xFF, 0xFF, 0xFF, 0xFF] = some ([0x00, 0x00, 0x00, 0x00, 0x00, 0x00, 0x00, 0x01], 2, .success) :=
  by decide +kernel

theorem test_mul_f32 :
    after [0x22, 0x09] [0xBF, 0x40, 0x00, 0x00, 0x40, 0x10, 0x00, 0x00] = some ([0xBF, 0xD8, 0x00, 0x00], 2, .success)
      ∧ after [0x22, 0x09] [0x3E, 0x99, 0x99, 0x9A, 0xBF, 0x80, 0x00, 0x00] = some ([0xBE, 0x99, 0x99, 0x9A], 2, .success) :=
  by decide +kernel

theorem test_mul_f64 :
    after [0x22, 0x0A] [0x3F, 0xF8, 0x00, 0x00, 0x00, 0x00, 0x00, 0x00, 0x40, 0x02, 0x00, 0x00, 0x00, 0x00, 0x00, 0x00] = some ([0x40, 0x0B, 0x00, 0x00, 0x00, 0x00, 0x00, 0x00], 2, .success) :=
  by decide +kernel

theorem test_bool_arithmetic_invalid :
    after [0x20, 0x00] [0x01, 0x01] = some ([0x01, 0x01], 0, .faulted .invalidOpcode)
      ∧ after [0x21, 0x00] [0x01, 0x01] = some ([0x01, 0x01], 0, .faulted .invalidOpcode)
      ∧ after [0x22, 0x00] [0x01, 0x01] = some ([0x01, 0x01], 0, .faulted .invalidOpcode) :=
  by decide +kernel

theorem test_bw_and_x8 :
    after [0x30] [0xAA, 0x0F] = some ([0x0A], 1, .success)
      ∧ after [0x30] [0x12, 0x34, 0x00] = some ([0x12, 0x00], 1, .success) :=
  by decide +kernel

theorem test_bw_and_x16 :
    after [0x31] [0x00, 0xFF, 0xF0, 0x0F] = some ([0x00, 0x0F], 1, .success)
      ∧ after [0x31] [0x01, 0x02, 0x03] = some ([0x01, 0x02, 0x03], 0, .faulted .stackUnderflow) :=
  by decide +kernel

theorem test_bw_and_x32 :
    after [0x32] [0xBF, 0x80, 0x00, 0x00, 0x7F, 0xFF, 0xFF, 0xFF] = some ([0x3F, 0x80, 0x00, 0x00], 1, .success) :=
  by decide +kernel

theorem test_bw_and_x64 :
    after [0x33] [0x01, 0x23, 0x45, 0x67, 0x89, 0xAB, 0xCD, 0xEF, 0xFF, 0x00, 0xFF, 0x00, 0xFF, 0x00, 0xFF, 0x00] = some ([0x01, 0x00, 0x45, 0x00, 0x89, 0x00, 0xCD, 0x00], 1, .success) :=
  by decide +kernel

theorem test_logic_and :
    after [0x40] [0x02, 0x01] = some ([0x01], 1, .success)
      ∧ after [0x40] [0x80, 0x00] = some ([0x00], 1, .success) :=
  by decide +kernel

theorem test_logic_or :
    after [0x41] [0x80, 0x00] = some ([0x01], 1, .success)
      ∧ after [0x41] [0x00, 0x00] = some ([0x00], 1, .success) :=
  by decide +kernel

theorem test_cmp_eq_bool :
    after [0x50, 0x00] [0x01, 0x01] = some ([0x01], 2, .success)
      ∧ after [0x50, 0x00] [0x01, 0x02] = some ([0x00], 2, .success) :=
  by decide +kernel

theorem test_cmp_eq_u8 :
    after [0x50, 0x01] [0x07, 0x07] = some ([0x01], 2, .success)
      ∧ after [0x50, 0x01] [0x07, 0x08] = some ([0x00], 2, .success) :=
  by decide +kernel

theorem test_cmp_eq_u16 :
    after [0x50, 0x02] [0x01, 0x00, 0x00, 0x01] = some ([0x00], 2, .success) :=
  by decide +kernel

theorem test_cmp_eq_u32 :
    after [0x50, 0x03] [0x0F, 0x0F, 0x00, 0x00, 0x0F, 0x0F, 0x00, 0x00] = some ([0x01], 2, .success)
      ∧ after [0x50, 0x03] [0x00, 0x00, 0x00, 0x00, 0x80, 0x00, 0x00, 0x00] = some ([0x00], 2, .success) :=
  by decide +kernel

theorem test_cmp_eq_u64 :
    after [0x50, 0x04] [0x00, 0x00, 0x00, 0x00, 0x00, 0x00, 0x00, 0x01, 0x00, 0x00, 0x00, 0x00, 0x00, 0x00, 0x00, 0x01] = some ([0x01], 2, .success) :=
  by decide +kernel

theorem test_cmp_eq_s8 : after [0x50, 0x05] [0xFD, 0xFD] = some ([0x01], 2, .success) := by decide +kernel

theorem test_cmp_eq_s16 :
    after [0x50, 0x06] [0xFF, 0x9C, 0xFF, 0x9C] = some ([0x01], 2, .success) :=
  by decide +kernel

theorem test_cmp_eq_s32 :
    after [0x50, 0x07] [0x7F, 0xC0, 0x00, 0x00, 0x7F, 0xC0, 0x00, 0x00] = some ([0x01], 2, .success) :=
  by decide +kernel

theorem test_cmp_eq_s64 :
    after [0x50, 0x08] [0x80, 0x00, 0x00, 0x00, 0x00, 0x00, 0x00, 0x00, 0x00, 0x00, 0x00, 0x00, 0x00, 0x00, 0x00, 0x00] = some ([0x00], 2, .success) :=
  by decide +kernel

theorem test_cmp_eq_f32 :
    after [0x50, 0x09] [0x00, 0x00, 0x00, 0x00, 0x80, 0x00, 0x00, 0x00] = some ([0x01], 2, .success)
      ∧ after [0x50, 0x09] [0x7F, 0xC0, 0x00, 0x00, 0x7F, 0xC0, 0x00, 0x00] = some ([0x00], 2, .success) :=
  by decide +kernel

theorem test_cmp_eq_f64 :
    after [0x50, 0x0A] [0x3F, 0xD3, 0x33, 0x33, 0x33, 0x33, 0x33, 0x34, 0x3F, 0xD3, 0x33, 0x33, 0x33, 0x33, 0x33, 0x33] = some ([0x00], 2, .success) :=
  by decide +kernel

theorem test_jmp :
    after [0x60, 0x00, 0x00] [] = some ([], 0, .success)
      ∧ after [0x60, 0x00, 0x03, 0x61] [] = some ([], 3, .success)
      ∧ after [0x60, 0x00, 0x03] [] = some ([], 0, .faulted .jumpOutOfRange) :=
  by decide +kernel

theorem test_exit : after [0x61] [0x09] = some ([0x09], 0, .exited) := by decide +kernel

theorem test_truncated_and_empty :
    after [0x60, 0xFF] [] = some ([], 0, .faulted .fetchOutOfRange)
      ∧ after [0x20] [] = some ([], 0, .faulted .fetchOutOfRange)
      ∧ after [0x11] [] = some ([], 0, .faulted .fetchOutOfRange)
      ∧ after [] [] = some ([], 0, .faulted .fetchOutOfRange)
      ∧ after [0x00] [] = some ([], 0, .faulted .invalidOpcode) :=
  by decide +kernel

theorem test_exit_flag :
    (next (load [0x61] [])).exitf = true ∧ (next (load [0x61] [])).finished = true :=
  by decide +kernel

theorem test_append_capacity :
    (Command.run (.pushU8 1) (State.resetWith ⟨64, 64, 1⟩)) = (.append .capacityFault, State.resetWith ⟨64, 64, 1⟩)
      ∧ (Command.run (.pushU8 1) (State.resetWith ⟨64, 64, 2⟩)).1 = .append .appended
      ∧ (Command.run (.pushU8 1) (State.resetWith ⟨64, 64, 2⟩)).2.prog.readBytes 0 2 = [0x11, 0x01] :=
  by decide +kernel

theorem test_read_types :
    (Command.run (.read .s8 0) (load [] [0xFD])).1 = .value (.signed (-3))
      ∧ (Command.run (.read .u8 0) (load [] [0xFD])).1 = .value (.unsigned 253)
      ∧ (Command.run (.read .u16 0) (load [] [0x12, 0x34])).1 = .value (.unsigned 0x1234) :=
  by decide +kernel

/-! ### Witnesses: states and operands that meet the hypotheses of the statements -/

theorem witness_EncodeOfDecode : decode [0x60, 0x00, 0x0B, 0x61] = .ok (.jmp 11, [0x61]) := by decide +kernel

theorem witness_Length_decoded :
    decode (0x1A :: [0, 1, 2, 3, 4, 5, 6, 7, 8]) = .ok (.pushF64 0x0001020304050607, [8]) :=
  by decide +kernel

theorem witness_InvalidEncodings_opcode :
    [0x00, 0x0F, 0x1B, 0x1F, 0x23, 0x34, 0x42, 0x51, 0x5F, 0x62, 0xFF].all (fun op => decide (
      (load [op] []).status = .success ∧ (load [op] []).pc.toNat < (load [op] []).plen.toNat
      ∧ (load [op] []).prog.read (load [op] []).pc.toNat ∉ ([0x10, 0x11, 0x12, 0x13, 0x14, 0x15, 0x16, 0x17, 0x18,
        0x19, 0x1A, 0x20, 0x21, 0x22, 0x30, 0x31, 0x32, 0x33, 0x40, 0x41, 0x50, 0x60, 0x61] : List Byte))) = true :=
  by decide +kernel

theorem witness_InvalidEncodings_type_low :
    0x50 ∈ ([0x20, 0x21, 0x22, 0x50] : List Byte) ∧ 0x0A < (0x0B : Byte).toNat ∧ AtPc (load [0x50, 0x0B] []) [0x50, 0x0B] :=
  ⟨by decide, by decide, ⟨by decide +kernel, by decide +kernel, by decide +kernel⟩⟩

theorem witness_InvalidEncodings_type_high :
    0x20 ∈ ([0x20, 0x21, 0x22, 0x50] : List Byte) ∧ 0x0A < (0xFF : Byte).toNat ∧ AtPc (load [0x20, 0xFF] []) [0x20, 0xFF] :=
  ⟨by decide, by decide, ⟨by decide +kernel, by decide +kernel, by decide +kernel⟩⟩

theorem witness_InvalidEncodings_bool :
    0x22 ∈ ([0x20, 0x21, 0x22] : List Byte) ∧ AtPc (load [0x22, 0x00] [0x01, 0x01]) [0x22, 0x00] :=
  ⟨by decide, ⟨by decide +kernel, by decide +kernel, by decide +kernel⟩⟩

theorem witness_InvalidEncodings_cmp :
    AtPc (load [0x50, 0x00] [0x01, 0x01]) [0x50, 0x00] :=
  ⟨by decide +kernel, by decide +kernel, by decide +kernel⟩

theorem witness_StepRunsDecoded :
    (load [0x60, 0x00, 0x03, 0x61] []).status = .success
      ∧ decode (load [0x60, 0x00, 0x03, 0x61] []).fetchWindow = .ok (.jmp 3, [0x61]) :=
  by decide +kernel

theorem witness_StepRunsEncoded :
    AtPc (load [0x1A, 0x3F, 0xF8, 0, 0, 0, 0, 0, 0] []) (encode (.pushF64 0x3FF8000000000000)) :=
  ⟨by decide +kernel, by decide +kernel, by decide +kernel⟩

theorem witness_FetchPast_end :
    (load [] []).status = .success ∧ (load [] []).plen.toNat ≤ (load [] []).pc.toNat :=
  by decide +kernel

theorem witness_FetchPast_payload :
    instrLength 0x12 = some 3 ∧ CutShort (load [0x12, 0x00] []) 0x12 3 :=
  ⟨by decide +kernel, ⟨by decide +kernel, by decide +kernel, by decide +kernel, by decide +kernel⟩⟩

theorem witness_FetchPast_reported :
    step (load [0x11] []) = .next (next (load [0x11] []))
      ∧ (next (load [0x11] [])).status = .faulted .fetchOutOfRange :=
  ⟨rfl, by decide +kernel⟩

theorem witness_FirstFault :
    (load [0x11, 0x07] [0x05]).status = .success
      ∧ (load [0x11, 0x07] [0x05]).sp.toNat ≤ (load [0x11, 0x07] [0x05]).params.stackCap.toNat
      ∧ firstFault (load [0x11, 0x07] [0x05]) = none
      ∧ firstFault (loadWith ⟨1, 64, 256⟩ [0x11, 0x07] [0x05]) = some .stackOverflow
      ∧ firstFault (load [0x20] []) = some .fetchOutOfRange ∧ firstFault (load [0x20, 0x0B] []) = some .invalidOpcode
      ∧ firstFault (load [0x20, 0x02] [1, 2, 3]) = some .stackUnderflow
      ∧ firstFault (load [0x60, 0x00, 0x03] []) = some .jumpOutOfRange :=
  by decide +kernel

theorem witness_FaultChangesNothing :
    step (load [0x20, 0x01] [0x01]) = .next (next (load [0x20, 0x01] [0x01]))
      ∧ (next (load [0x20, 0x01] [0x01])).status = .faulted .stackUnderflow :=
  ⟨rfl, by decide +kernel⟩

theorem witness_TerminalState :
    (next (load [0x61] [])).status ≠ .success
      ∧ (next (load [0x00] [])).status ≠ .success :=
  by decide +kernel

theorem witness_NextPc_fault :
    (load [0x00] []).status = .success ∧ (next (load [0x00] [])).status = .faulted .invalidOpcode :=
  by decide +kernel

theorem witness_NextPc_exit :
    (load [0x61] []).pc.toNat < (load [0x61] []).plen.toNat ∧ (load [0x61] []).prog.read (load [0x61] []).pc.toNat = 0x61 :=
  by decide +kernel

theorem witness_NextPc_jump :
    (load [0x60, 0x00, 0x03, 0x61] []).prog.read (load [0x60, 0x00, 0x03, 0x61] []).pc.toNat = 0x60
      ∧ (next (load [0x60, 0x00, 0x03, 0x61] [])).status = .success :=
  by decide +kernel

theorem witness_NextPc_advance :
    (load [0x11, 0x01] []).prog.read (load [0x11, 0x01] []).pc.toNat ≠ 0x60 ∧ (next (load [0x11, 0x01] [])).status = .success :=
  by decide +kernel

theorem witness_StepKeepsTheInvariant :
    (load [0x11, 0x01] [0x05]).wf = true
      ∧ step (load [0x11, 0x01] [0x05]) = .next (next (load [0x11, 0x01] [0x05])) :=
  ⟨by decide +kernel, rfl⟩

theorem witness_ResetMeetsTheInvariant :
    Params.wf ⟨1, 0, 1⟩ = true ∧ Params.wf ⟨65535, 65535, 65535⟩ = true :=
  by decide +kernel

theorem witness_CommandsKeepTheInvariant :
    (load [0x11, 0x01] [0x05]).wf = true ∧ (Command.run (.cleanRun 3) (load [0x11, 0x01] [0x05])).2.pc = 2 :=
  by decide +kernel

theorem witness_StepLeavesProgram : step (load [0x20, 0x01] [1, 2]) = .next (next (load [0x20, 0x01] [1, 2])) := rfl

theorem witness_ExitFlag :
    step (load [0x61] []) = .next (next (load [0x61] []))
      ∧ Command.clear ≠ .erase ∧ Command.clear ≠ .step ∧ (∀ n, Command.clear ≠ .cleanRun n) :=
  ⟨rfl, by decide, by decide, by intro n h; cases h⟩

theorem witness_SameObserved :
    SameObserved (load [0x20, 0x01] [1, 2])
        { load [0x20, 0x01] [1, 2] with mem := ⟨[(0, 9)]⟩, stack := ⟨[(0, 1), (1, 2), (2, 7)]⟩, prog := ⟨[(0, 0x20), (1, 1), (5, 1)]⟩ }
      ∧ step (load [0x20, 0x01] [1, 2]) = .next (next (load [0x20, 0x01] [1, 2])) :=
  ⟨⟨rfl, rfl, rfl, rfl, rfl, rfl, by decide +kernel, by decide +kernel⟩, rfl⟩

theorem witness_MemoryOutOfRange :
    (load [0x00] []).status ≠ .faulted .memoryOutOfRange
      ∧ step (load [0x00] []) = .next (next (load [0x00] [])) :=
  ⟨by decide +kernel, rfl⟩

theorem witness_Push1_cut :
    CutShort (load [0x11] []) 0x11 (1 + 1) :=
  ⟨by decide +kernel, by decide +kernel, by decide +kernel, by decide +kernel⟩

theorem witness_Push1_at_pc :
    AtPc (load [0x11, 0x07] []) (0x11 :: [byteOf 0 (0x07 : BitVec 8).toNat]) :=
  ⟨by decide +kernel, by decide +kernel, by decide +kernel⟩

theorem witness_Push1_overflow_and_exact_fill :
    (loadWith ⟨1, 64, 256⟩ [0x11, 0x07] [0x05]).params.stackCap.toNat < (loadWith ⟨1, 64, 256⟩ [0x11, 0x07] [0x05]).sp.toNat + 1
      ∧ (loadWith ⟨1, 64, 256⟩ [0x11, 0x07] []).sp.toNat + 1 ≤ (loadWith ⟨1, 64, 256⟩ [0x11, 0x07] []).params.stackCap.toNat :=
  by decide +kernel

theorem witness_Push2_cut :
    CutShort (load [0x12, 0x12] []) 0x12 (1 + 2) :=
  ⟨by decide +kernel, by decide +kernel, by decide +kernel, by decide +kernel⟩

theorem witness_Push2_at_pc :
    AtPc (load [0x12, 0x12, 0x34] []) (0x12 :: [byteOf 1 (0x1234 : BitVec 16).toNat, byteOf 0 (0x1234 : BitVec 16).toNat]) :=
  ⟨by decide +kernel, by decide +kernel, by decide +kernel⟩

theorem witness_Push2_overflow_and_exact_fill :
    (loadWith ⟨2, 64, 256⟩ [0x12, 0x12, 0x34] [0x05]).params.stackCap.toNat < (loadWith ⟨2, 64, 256⟩ [0x12, 0x12, 0x34] [0x05]).sp.toNat + 2
      ∧ (loadWith ⟨2, 64, 256⟩ [0x12, 0x12, 0x34] []).sp.toNat + 2 ≤ (loadWith ⟨2, 64, 256⟩ [0x12, 0x12, 0x34] []).params.stackCap.toNat :=
  by decide +kernel

theorem witness_Push4_cut :
    CutShort (load [0x13, 0xDE, 0xAD, 0xBE] []) 0x13 (1 + 4) :=
  ⟨by decide +kernel, by decide +kernel, by decide +kernel, by decide +kernel⟩

theorem witness_Push4_at_pc :
    AtPc (load [0x13, 0xDE, 0xAD, 0xBE, 0xEF] []) (0x13 :: [byteOf 3 (0xDEADBEEF : BitVec 32).toNat, byteOf 2 (0xDEADBEEF : BitVec 32).toNat, byteOf 1 (0xDEADBEEF : BitVec 32).toNat, byteOf 0 (0xDEADBEEF : BitVec 32).toNat]) :=
  ⟨by decide +kernel, by decide +kernel, by decide +kernel⟩

theorem witness_Push4_overflow_and_exact_fill :
    (loadWith ⟨4, 64, 256⟩ [0x13, 0xDE, 0xAD, 0xBE, 0xEF] [0x05]).params.stackCap.toNat < (loadWith ⟨4, 64, 256⟩ [0x13, 0xDE, 0xAD, 0xBE, 0xEF] [0x05]).sp.toNat + 4
      ∧ (loadWith ⟨4, 64, 256⟩ [0x13, 0xDE, 0xAD, 0xBE, 0xEF] []).sp.toNat + 4 ≤ (loadWith ⟨4, 64, 256⟩ [0x13, 0xDE, 0xAD, 0xBE, 0xEF] []).params.stackCap.toNat :=
  by decide +kernel

theorem witness_Push8_cut :
    CutShort (load [0x1A, 0x3F, 0xF8, 0x00, 0x00, 0x00, 0x00, 0x00] []) 0x1A (1 + 8) :=
  ⟨by decide +kernel, by decide +kernel, by decide +kernel, by decide +kernel⟩

theorem witness_Push8_at_pc :
    AtPc (load [0x1A, 0x3F, 0xF8, 0x00, 0x00, 0x00, 0x00, 0x00, 0x00] []) (0x1A :: [byteOf 7 (0x3FF8000000000000 : BitVec 64).toNat, byteOf 6 (0x3FF8000000000000 : BitVec 64).toNat, byteOf 5 (0x3FF8000000000000 : BitVec 64).toNat, byteOf 4 (0x3FF8000000000000 : BitVec 64).toNat, byteOf 3 (0x3FF8000000000000 : BitVec 64).toNat, byteOf 2 (0x3FF8000000000000 : BitVec 64).toNat, byteOf 1 (0x3FF8000000000000 : BitVec 64).toNat, byteOf 0 (0x3FF8000000000000 : BitVec 64).toNat]) :=
  ⟨by decide +kernel, by decide +kernel, by decide +kernel⟩

theorem witness_Push8_overflow_and_exact_fill :
    (loadWith ⟨8, 64, 256⟩ [0x1A, 0x3F, 0xF8, 0x00, 0x00, 0x00, 0x00, 0x00, 0x00] [0x05]).params.stackCap.toNat < (loadWith ⟨8, 64, 256⟩ [0x1A, 0x3F, 0xF8, 0x00, 0x00, 0x00, 0x00, 0x00, 0x00] [0x05]).sp.toNat + 8
      ∧ (loadWith ⟨8, 64, 256⟩ [0x1A, 0x3F, 0xF8, 0x00, 0x00, 0x00, 0x00, 0x00, 0x00] []).sp.toNat + 8 ≤ (loadWith ⟨8, 64, 256⟩ [0x1A, 0x3F, 0xF8, 0x00, 0x00, 0x00, 0x00, 0x00, 0x00] []).params.stackCap.toNat :=
  by decide +kernel

theorem witness_Add_cut :
    CutShort (load [0x20] []) 0x20 2 :=
  ⟨by decide +kernel, by decide +kernel, by decide +kernel, by decide +kernel⟩

theorem witness_Add_types :
    AtPc (load [0x20, 0x01] []) [0x20, 0x01] ∧ AtPc (load [0x20, 0x0A] []) [0x20, 0x0A] :=
  ⟨⟨by decide +kernel, by decide +kernel, by decide +kernel⟩, ⟨by decide +kernel, by decide +kernel, by decide +kernel⟩⟩

theorem witness_Add_invalid_types :
    ((0x00 : Byte) = 0x00 ∨ 0x0A < (0x00 : Byte).toNat) ∧ AtPc (load [0x20, 0x00] []) [0x20, 0x00]
      ∧ ((0x0B : Byte) = 0x00 ∨ 0x0A < (0x0B : Byte).toNat) ∧ AtPc (load [0x20, 0x0B] []) [0x20, 0x0B] :=
  ⟨by decide, ⟨by decide +kernel, by decide +kernel, by decide +kernel⟩, by decide, ⟨by decide +kernel, by decide +kernel, by decide +kernel⟩⟩

theorem witness_Sub_cut :
    CutShort (load [0x21] []) 0x21 2 :=
  ⟨by decide +kernel, by decide +kernel, by decide +kernel, by decide +kernel⟩

theorem witness_Sub_types :
    AtPc (load [0x21, 0x01] []) [0x21, 0x01] ∧ AtPc (load [0x21, 0x0A] []) [0x21, 0x0A] :=
  ⟨⟨by decide +kernel, by decide +kernel, by decide +kernel⟩, ⟨by decide +kernel, by decide +kernel, by decide +kernel⟩⟩

theorem witness_Sub_invalid_types :
    ((0x00 : Byte) = 0x00 ∨ 0x0A < (0x00 : Byte).toNat) ∧ AtPc (load [0x21, 0x00] []) [0x21, 0x00]
      ∧ ((0x0B : Byte) = 0x00 ∨ 0x0A < (0x0B : Byte).toNat) ∧ AtPc (load [0x21, 0x0B] []) [0x21, 0x0B] :=
  ⟨by decide, ⟨by decide +kernel, by decide +kernel, by decide +kernel⟩, by decide, ⟨by decide +kernel, by decide +kernel, by decide +kernel⟩⟩

theorem witness_Mul_cut :
    CutShort (load [0x22] []) 0x22 2 :=
  ⟨by decide +kernel, by decide +kernel, by decide +kernel, by decide +kernel⟩

theorem witness_Mul_types :
    AtPc (load [0x22, 0x01] []) [0x22, 0x01] ∧ AtPc (load [0x22, 0x0A] []) [0x22, 0x0A] :=
  ⟨⟨by decide +kernel, by decide +kernel, by decide +kernel⟩, ⟨by decide +kernel, by decide +kernel, by decide +kernel⟩⟩

theorem witness_Mul_invalid_types :
    ((0x00 : Byte) = 0x00 ∨ 0x0A < (0x00 : Byte).toNat) ∧ AtPc (load [0x22, 0x00] []) [0x22, 0x00]
      ∧ ((0x0B : Byte) = 0x00 ∨ 0x0A < (0x0B : Byte).toNat) ∧ AtPc (load [0x22, 0x0B] []) [0x22, 0x0B] :=
  ⟨by decide, ⟨by decide +kernel, by decide +kernel, by decide +kernel⟩, by decide, ⟨by decide +kernel, by decide +kernel, by decide +kernel⟩⟩

theorem witness_CmpEq_cut :
    CutShort (load [0x50] []) 0x50 2 :=
  ⟨by decide +kernel, by decide +kernel, by decide +kernel, by decide +kernel⟩

theorem witness_CmpEq_types :
    AtPc (load [0x50, 0x01] []) [0x50, 0x01] ∧ AtPc (load [0x50, 0x0A] []) [0x50, 0x0A] :=
  ⟨⟨by decide +kernel, by decide +kernel, by decide +kernel⟩, ⟨by decide +kernel, by decide +kernel, by decide +kernel⟩⟩

theorem witness_CmpEq_invalid_type :
    0x0A < (0x0B : Byte).toNat ∧ AtPc (load [0x50, 0x0B] []) [0x50, 0x0B] :=
  ⟨by decide, ⟨by decide +kernel, by decide +kernel, by decide +kernel⟩⟩

theorem witness_OneByteOpcodes_at_pc :
    AtPc (load [0x30] []) [0x30] ∧ AtPc (load [0x33] []) [0x33] ∧ AtPc (load [0x40] []) [0x40]
      ∧ AtPc (load [0x41] []) [0x41] :=
  ⟨⟨by decide +kernel, by decide +kernel, by decide +kernel⟩, ⟨by decide +kernel, by decide +kernel, by decide +kernel⟩,
    ⟨by decide +kernel, by decide +kernel, by decide +kernel⟩, ⟨by decide +kernel, by decide +kernel, by decide +kernel⟩⟩

/-- A full stack with a left-hand and a right-hand operand of 8 bits above one byte. -/
def operands8 : State := loadWith ⟨3, 64, 256⟩ [] [0xAA, 0x11, 0xE1]

theorem witness_Binary8_operands :
    2 * (8 / 8) ≤ operands8.sp.toNat ∧ operands8.sp.toNat ≤ operands8.params.stackCap.toNat
      ∧ HoldsBE operands8.stack (operands8.sp.toNat - 2 * (8 / 8)) (8 / 8) (0x11 : BitVec 8).toNat
      ∧ HoldsBE operands8.stack (operands8.sp.toNat - 8 / 8) (8 / 8) (0xE1 : BitVec 8).toNat :=
  ⟨by decide +kernel, by decide +kernel, by unfold HoldsBE; decide +kernel, by unfold HoldsBE; decide +kernel⟩

theorem witness_Binary8_underflow : (load [] [0x11]).sp.toNat < 2 * (8 / 8) := by decide +kernel

/-- A full stack with a left-hand and a right-hand operand of 16 bits above one byte. -/
def operands16 : State := loadWith ⟨5, 64, 256⟩ [] [0xAA, 0x11, 0x12, 0xE1, 0xE2]

theorem witness_Binary16_operands :
    2 * (16 / 8) ≤ operands16.sp.toNat ∧ operands16.sp.toNat ≤ operands16.params.stackCap.toNat
      ∧ HoldsBE operands16.stack (operands16.sp.toNat - 2 * (16 / 8)) (16 / 8) (0x1112 : BitVec 16).toNat
      ∧ HoldsBE operands16.stack (operands16.sp.toNat - 16 / 8) (16 / 8) (0xE1E2 : BitVec 16).toNat :=
  ⟨by decide +kernel, by decide +kernel, by unfold HoldsBE; decide +kernel, by unfold HoldsBE; decide +kernel⟩

theorem witness_Binary16_underflow : (load [] [0x11, 0x12, 0xE1]).sp.toNat < 2 * (16 / 8) := by decide +kernel

/-- A full stack with a left-hand and a right-hand operand of 32 bits above one byte. -/
def operands32 : State := loadWith ⟨9, 64, 256⟩ [] [0xAA, 0x11, 0x12, 0x13, 0x14, 0xE1, 0xE2, 0xE3, 0xE4]

theorem witness_Binary32_operands :
    2 * (32 / 8) ≤ operands32.sp.toNat ∧ operands32.sp.toNat ≤ operands32.params.stackCap.toNat
      ∧ HoldsBE operands32.stack (operands32.sp.toNat - 2 * (32 / 8)) (32 / 8) (0x11121314 : BitVec 32).toNat
      ∧ HoldsBE operands32.stack (operands32.sp.toNat - 32 / 8) (32 / 8) (0xE1E2E3E4 : BitVec 32).toNat :=
  ⟨by decide +kernel, by decide +kernel, by unfold HoldsBE; decide +kernel, by unfold HoldsBE; decide +kernel⟩

theorem witness_Binary32_underflow :
    (load [] [0x11, 0x12, 0x13, 0x14, 0xE1, 0xE2, 0xE3]).sp.toNat < 2 * (32 / 8) :=
  by decide +kernel

/-- A full stack with a left-hand and a right-hand operand of 64 bits above one byte. -/
def operands64 : State := loadWith ⟨17, 64, 256⟩ [] [0xAA, 0x11, 0x12, 0x13, 0x14, 0x15, 0x16, 0x17, 0x18, 0xE1, 0xE2, 0xE3, 0xE4, 0xE5, 0xE6, 0xE7, 0xE8]

theorem witness_Binary64_operands :
    2 * (64 / 8) ≤ operands64.sp.toNat ∧ operands64.sp.toNat ≤ operands64.params.stackCap.toNat
      ∧ HoldsBE operands64.stack (operands64.sp.toNat - 2 * (64 / 8)) (64 / 8) (0x1112131415161718 : BitVec 64).toNat
      ∧ HoldsBE operands64.stack (operands64.sp.toNat - 64 / 8) (64 / 8) (0xE1E2E3E4E5E6E7E8 : BitVec 64).toNat :=
  ⟨by decide +kernel, by decide +kernel, by unfold HoldsBE; decide +kernel, by unfold HoldsBE; decide +kernel⟩

theorem witness_Binary64_underflow :
    (load [] [0x11, 0x12, 0x13, 0x14, 0x15, 0x16, 0x17, 0x18, 0xE1, 0xE2, 0xE3, 0xE4, 0xE5, 0xE6, 0xE7]).sp.toNat < 2 * (64 / 8) :=
  by decide +kernel

theorem witness_Jump_cut :
    CutShort (load [0x60, 0xFF] []) 0x60 3 :=
  ⟨by decide +kernel, by decide +kernel, by decide +kernel, by decide +kernel⟩

theorem witness_Jump_at_pc :
    AtPc (load [0x60, 0x00, 0x0B] []) [0x60, 0x00, 0x0B] :=
  ⟨by decide +kernel, by decide +kernel, by decide +kernel⟩

theorem witness_Jump_out_and_in_range :
    (load [0x60, 0x00, 0x03] []).plen.toNat ≤ (3 : Word16).toNat
      ∧ (2 : Word16).toNat < (load [0x60, 0x00, 0x03] []).plen.toNat :=
  by decide +kernel

theorem witness_Exit : AtPc (load [0x61] [0x09]) [0x61] := ⟨by decide +kernel, by decide +kernel, by decide +kernel⟩

theorem witness_JumpToItself :
    AtPc (load [0x60, 0x00, 0x00] []) [0x60, 0x00, 0x00]
      ∧ (load [0x60, 0x00, 0x00] []).pc.toNat = (0x00 : Byte).toNat * 256 + (0x00 : Byte).toNat :=
  ⟨⟨by decide +kernel, by decide +kernel, by decide +kernel⟩, by decide +kernel⟩

/-- Magnitude zero, a subnormal, the greatest finite number of each format are finite. -/
theorem witness_FloatFinite :
    IsFinite Config.binary32 (0x80000000 : BitVec 32).toNat ∧ IsFinite Config.binary32 (0x00000001 : BitVec 32).toNat
      ∧ IsFinite Config.binary32 (0x7F7FFFFF : BitVec 32).toNat ∧ IsFinite Config.binary64 (0 : BitVec 64).toNat
      ∧ IsFinite Config.binary64 (0xFFEFFFFFFFFFFFFF : BitVec 64).toNat :=
  by unfold IsFinite; decide +kernel

theorem witness_FloatZeroSum :
    signedValue Config.binary32 (0x3F800000 : BitVec 32).toNat + signedValue Config.binary32 (0xBF800000 : BitVec 32).toNat = 0
      ∧ signedValue Config.binary64 (0 : BitVec 64).toNat + signedValue Config.binary64 (0x8000000000000000 : BitVec 64).toNat = 0 :=
  by decide +kernel

theorem witness_FloatZeroDifferenceAndProduct :
    signedValue Config.binary32 (0x3F800000 : BitVec 32).toNat - signedValue Config.binary32 (0x3F800000 : BitVec 32).toNat = 0
      ∧ signedValue Config.binary64 (0x3FF0000000000000 : BitVec 64).toNat * signedValue Config.binary64 (0x8000000000000000 : BitVec 64).toNat = 0 :=
  by decide +kernel

theorem witness_NanOperands :
    isNaN Config.binary32 (0x7F800001 : BitVec 32).toNat = true ∧ isNaN Config.binary64 (0xFFF8000000000000 : BitVec 64).toNat = true :=
  by decide +kernel

theorem witness_InfiniteOperands :
    isInf Config.binary32 (0x7F800000 : BitVec 32).toNat = true ∧ isInf Config.binary32 (0xFF800000 : BitVec 32).toNat = true
      ∧ isNeg Config.binary32 (0x7F800000 : BitVec 32).toNat ≠ isNeg Config.binary32 (0xFF800000 : BitVec 32).toNat
      ∧ isZero Config.binary32 (0x80000000 : BitVec 32).toNat = true ∧ isNaN Config.binary32 (0x3F800000 : BitVec 32).toNat = false
      ∧ isInf Config.binary32 (0x3F800000 : BitVec 32).toNat = false ∧ isZero Config.binary32 (0x3F800000 : BitVec 32).toNat = false
      ∧ isNeg Config.binary32 (0x7F800000 : BitVec 32).toNat = isNeg Config.binary32 (0x3F800000 : BitVec 32).toNat :=
  by decide +kernel

theorem witness_InfiniteOperands64 :
    isInf Config.binary64 (0x7FF0000000000000 : BitVec 64).toNat = true
      ∧ isInf Config.binary64 (0xFFF0000000000000 : BitVec 64).toNat = true
      ∧ isNeg Config.binary64 (0x7FF0000000000000 : BitVec 64).toNat ≠ isNeg Config.binary64 (0xFFF0000000000000 : BitVec 64).toNat
      ∧ isZero Config.binary64 (0 : BitVec 64).toNat = true ∧ isNaN Config.binary64 (0x3FF0000000000000 : BitVec 64).toNat = false
      ∧ isInf Config.binary64 (0x3FF0000000000000 : BitVec 64).toNat = false
      ∧ isZero Config.binary64 (0x3FF0000000000000 : BitVec 64).toNat = false :=
  by decide +kernel

theorem witness_PushPop :
    16 ∈ [8, 16, 32, 64]
      ∧ (load [] [0x01]).sp.toNat + 16 / 8 ≤ (load [] [0x01]).params.stackCap.toNat
      ∧ 16 / 8 ≤ (load [] [0x12, 0x34]).sp.toNat
      ∧ HoldsBE (load [] [0x12, 0x34]).stack ((load [] [0x12, 0x34]).sp.toNat - 16 / 8) (16 / 8) (0x1234 : BitVec 16).toNat :=
  ⟨by decide, by decide +kernel, by decide +kernel, by unfold HoldsBE; decide +kernel⟩

theorem witness_PushThenPush :
    (load [] []).push (0x12 : Byte) = .ok (load [] [0x12]) ∧ (load [] [0x12]).push (0x34 : Byte) = .ok (load [] [0x12, 0x34])
      ∧ (load [] []).push (0x1234 : BitVec 16) = .ok (load [] [0x12, 0x34]) :=
  by decide +kernel

theorem witness_DataMemory :
    4 ∈ [1, 2, 4, 8] ∧ 60 + 4 ≤ State.reset.params.memSize.toNat ∧ State.reset.params.memSize.toNat < 61 + 4 :=
  by decide +kernel

theorem witness_Append :
    1 ≤ [0x11, (0x01 : Byte)].length ∧ [0x11, (0x01 : Byte)].length ≤ 9
      ∧ (State.resetWith ⟨64, 64, 1⟩).params.progCap.toNat < (State.resetWith ⟨64, 64, 1⟩).plen.toNat + [0x11, (0x01 : Byte)].length
      ∧ (State.resetWith ⟨64, 64, 2⟩).plen.toNat + [0x11, (0x01 : Byte)].length ≤ (State.resetWith ⟨64, 64, 2⟩).params.progCap.toNat :=
  by decide +kernel

theorem witness_Queries : (load [0x11, 0x01] []).wf = true := by decide +kernel

theorem witness_Read :
    1 ≤ (load [] [0x34]).sp.toNat ∧ HoldsBE (load [] [0x34]).stack ((load [] [0x34]).sp.toNat - 1) 1 (0x34 : BitVec 8).toNat
      ∧ 2 ≤ operands16.sp.toNat ∧ HoldsBE operands16.stack (operands16.sp.toNat - 2) 2 (0xE1E2 : BitVec 16).toNat
      ∧ 4 ≤ operands32.sp.toNat ∧ HoldsBE operands32.stack (operands32.sp.toNat - 4) 4 (0xE1E2E3E4 : BitVec 32).toNat
      ∧ 8 ≤ operands64.sp.toNat ∧ HoldsBE operands64.stack (operands64.sp.toNat - 8) 8 (0xE1E2E3E4E5E6E7E8 : BitVec 64).toNat :=
  ⟨by decide +kernel, by unfold HoldsBE; decide +kernel, by decide +kernel, by unfold HoldsBE; decide +kernel,
    by decide +kernel, by unfold HoldsBE; decide +kernel, by decide +kernel, by unfold HoldsBE; decide +kernel⟩

theorem witness_CleanRun_ends :
    State.cleanRun 2 (load [0x11, 0x01, 0x61] []) = (some .exited, (State.cleanRun 2 (load [0x11, 0x01, 0x61] [])).2) :=
  by decide +kernel

theorem witness_CleanRun_runs_out :
    State.cleanRun 2 (load [0x60, 0x00, 0x00] []) = (none, load [0x60, 0x00, 0x00] []) :=
  by decide +kernel

theorem witness_AppendedNext :
    State.reset.status = .success ∧ State.reset.pc = State.reset.plen
      ∧ State.reset.plen.toNat + (encode (.pushU64 5)).length ≤ State.reset.params.progCap.toNat :=
  by decide +kernel

end Sys2Proof.Tests
end

