-- ==== Sys2Proof/Proofs/OperandStack.lean ====
section
/-! `Push`, `Pop`, `Top` and the one underflow check, as R15 and R16 state them. -/

namespace Sys2Proof.Proofs.OperandStack

open Sys2Proof Sys2Proof.Machine

/-! ### When the operations of the stack fail -/

theorem push_eq_error_iff {s : State} {w : Nat} {v : BitVec w} :
    s.push v = .error .stackOverflow ↔ s.params.stackCap.toNat < s.sp.toNat + w / 8 := by
  refine ⟨fun he => ?_, push_overflows⟩
  obtain ⟨hover, -⟩ | ⟨-, hok⟩ := push_cases s v
  · exact hover
  · cases hok.symm.trans he

theorem pop_eq_error_iff {s : State} {w : Nat} : s.pop w = .error .stackUnderflow ↔ s.sp.toNat < w / 8 := by
  refine ⟨fun he => ?_, pop_underflows⟩
  by_contra hn
  cases (pop_has (Nat.le_of_not_lt hn)).symm.trans he

theorem need_eq_error_iff {s : State} {n : Nat} : s.need n = .error .stackUnderflow ↔ s.sp.toNat < n := by
  simp [State.need]

/-! ### A push that fits, and the pop after it -/

/-- The only state a push can answer, and that it answers one only where the value fits. -/
theorem push_eq_ok {s t : State} {w : Nat} {v : BitVec w} (h : s.push v = .ok t) :
    s.sp.toNat + w / 8 ≤ s.params.stackCap.toNat ∧ t = s.pushed v := by
  obtain ⟨-, he⟩ | ⟨hfits, hok⟩ := push_cases s v
  · cases he.symm.trans h
  · exact ⟨hfits, Except.ok.inj (h.symm.trans hok)⟩

/-- The top of the stack after a push that fits is the value pushed: `SP` has not wrapped, so the bytes below it are the
ones written. -/
theorem pushed_top {s : State} {w : Nat} {v : BitVec w} (hw : w % 8 = 0)
    (h : s.sp.toNat + w / 8 ≤ s.params.stackCap.toNat) : (s.pushed v).top w = v := by
  apply top_of_holds hw
  rw [pushed_sp_toNat h, Nat.add_sub_cancel]
  exact holds_writeBytes s.stack s.sp.toNat (w / 8) v.toNat

/-- A pop after a push of the same width gives the value back and undoes the change of `SP`. -/
theorem pop_pushed {s : State} {w : Nat} {v : BitVec w} (hw : w % 8 = 0)
    (h : s.sp.toNat + w / 8 ≤ s.params.stackCap.toNat) :
    (s.pushed v).pop w = .ok (v, { s.pushed v with sp := s.sp }) := by
  have hhas : w / 8 ≤ (s.pushed v).sp.toNat := by
    rw [pushed_sp_toNat h]
    omega
  have hsp : (s.pushed v).sp - BitVec.ofNat 16 (w / 8) = s.sp := BitVec.add_sub_cancel ..
  rw [pop_has hhas, pushed_top hw h, hsp]

/-- The widths of the operand stack's values are whole bytes. -/
theorem width_mod_eight {w : Nat} (hw : w ∈ [8, 16, 32, 64]) : w % 8 = 0 := by
  simp only [List.mem_cons, List.not_mem_nil, or_false] at hw
  omega

end Sys2Proof.Proofs.OperandStack

open Sys2Proof Sys2Proof.Machine Sys2Proof.Proofs.OperandStack

/-- Settles O36: a push that fits answers `State.pushed`, whose bytes and frame are those of `Memory.writeBytes`. -/
theorem pushWritesTheValueOrOverflows : Obligations.PushWritesTheValueOrOverflows := by
  intro w _ s v
  refine ⟨push_eq_error_iff, fun hfits => ⟨s.pushed v, push_fits hfits, pushed_sp_toNat hfits, ?_, ?_, rfl⟩⟩
  · exact holds_writeBytes s.stack s.sp.toNat (w / 8) v.toNat
  · exact outside_writeBytes s.stack s.sp.toNat (w / 8) v.toNat

/-- Settles O37: `Top` reads the value that the top bytes hold, and a push that fits makes them hold its value. -/
theorem popReturnsTheTopOrUnderflows : Obligations.PopReturnsTheTopOrUnderflows := by
  intro w hw s v
  have hbytes : w % 8 = 0 := width_mod_eight hw
  refine ⟨pop_eq_error_iff, fun hhas hholds => ?_, fun t hpush => ?_, need_eq_error_iff⟩
  · have htop : s.top w = v := top_of_holds hbytes hholds
    exact ⟨htop, _, htop ▸ pop_has hhas, sp_sub_toNat hhas, rfl⟩
  · obtain ⟨hfits, rfl⟩ := push_eq_ok hpush
    exact ⟨_, pop_pushed hbytes hfits, rfl⟩

end

