-- ==== Sys2Proof/Proofs/EncodedLength.lean ====
section
/-! The length of an instruction, by its opcode byte alone (R53), and the one inversion of the decoder that says so of
whatever is decoded. -/

namespace Sys2Proof.Proofs.EncodedLength

open Sys2Proof

/-! ### The length of an opcode byte -/

/-- A byte outside the opcode map has no length (R55 case 1). -/
theorem instrLength_eq_none {op : Byte} (h : op ∉ opcodeTable.map OpcodeRow.opcode) : instrLength op = none := by
  rw [instrLength, Option.map_eq_none_iff, opcodeRow, List.find?_eq_none]
  intro r hr heq
  exact h (List.mem_map.2 ⟨r, hr, eq_of_beq heq⟩)

/-! ### What the decoder answers -/

/-- Everything that R57's steps 1 to 4 establish of bytes that are decoded. -/
theorem decode_cons_eq_ok {op : Byte} {payload rest : List Byte} {i : Instr}
    (h : decode (op :: payload) = .ok (i, rest)) :
    ∃ len, instrLength op = some len ∧ len - 1 ≤ payload.length ∧
      instrOf op (payload.take (len - 1)) = some i ∧ rest = payload.drop (len - 1) := by
  simp only [decode] at h
  split at h
  case h_1 => cases h
  case h_2 len hlen =>
    split at h
    case isTrue => cases h
    case isFalse hthere =>
      split at h
      case h_1 => cases h
      case h_2 j hj =>
        cases h
        exact ⟨len, hlen, Nat.le_of_not_lt hthere, hj, rfl⟩

/-! ### The length of the instruction an opcode byte and its payload name -/

theorem encode_ne_nil (i : Instr) : encode i ≠ [] := by
  cases i <;> exact List.cons_ne_nil _ _

/-- A function from Types to instructions all of which take an opcode and a Type byte (R50, `GEN`). -/
def TwoBytes (f : Ty → Option Instr) : Prop := ∀ t i, f t = some i → (encode i).length = 2

theorem twoBytes_addOf : TwoBytes addOf := by
  intro t i h
  cases t <;> cases h <;> rfl

theorem twoBytes_subOf : TwoBytes subOf := by
  intro t i h
  cases t <;> cases h <;> rfl

theorem twoBytes_mulOf : TwoBytes mulOf := by
  intro t i h
  cases t <;> cases h <;> rfl

theorem twoBytes_cmpEqOf : TwoBytes (some ∘ cmpEqOf) := by
  intro t i h
  cases t <;> cases h <;> rfl

/-- No Type byte changes the length of a generic instruction. -/
theorem length_encode_of_typeField {f : Ty → Option Instr} {payload : List Byte} {i : Instr} (hf : TwoBytes f)
    (h : (typeField payload).bind f = some i) : (encode i).length = 2 := by
  obtain ⟨t, -, ht⟩ := Option.bind_eq_some_iff.1 h
  exact hf t i ht

/-- The instruction an opcode byte names has the length of that byte, whatever its payload. -/
theorem instrLength_of_instrOf {op : Byte} {payload : List Byte} {i : Instr} (h : instrOf op payload = some i) :
    instrLength op = some (encode i).length := by
  unfold instrOf at h
  split at h
  -- The rows of format `GEN`: ADD, SUB, MUL, CMP_EQ. In every other row the opcode alone names the constructor.
  case h_12 => rw [length_encode_of_typeField twoBytes_addOf h]; rfl
  case h_13 => rw [length_encode_of_typeField twoBytes_subOf h]; rfl
  case h_14 => rw [length_encode_of_typeField twoBytes_mulOf h]; rfl
  case h_21 =>
    rw [Option.map_eq_bind] at h
    rw [length_encode_of_typeField twoBytes_cmpEqOf h]; rfl
  all_goals cases h <;> rfl

/-- The decoder takes exactly the bytes of the instruction it answers, as many as the first byte says. -/
theorem length_of_decode {op : Byte} {payload rest : List Byte} {i : Instr}
    (h : decode (op :: payload) = .ok (i, rest)) :
    instrLength op = some (encode i).length ∧ rest.length + (encode i).length = payload.length + 1 := by
  obtain ⟨len, hlen, hthere, hi, rfl⟩ := decode_cons_eq_ok h
  have hop : instrLength op = some (encode i).length := instrLength_of_instrOf hi
  obtain rfl : len = (encode i).length := Option.some.inj (hlen.symm.trans hop)
  have hpos : 0 < (encode i).length := List.length_pos_of_ne_nil (encode_ne_nil i)
  refine ⟨hop, ?_⟩
  rw [List.length_drop]
  omega

end Sys2Proof.Proofs.EncodedLength

open Sys2Proof Sys2Proof.Proofs.EncodedLength

/-- Settles O4: the table is R53's on each byte of the opcode map, a byte outside the map has no length, and what is
decoded has the length of its first byte. -/
theorem lengthIsAFunctionOfTheOpcodeByte : Obligations.LengthIsAFunctionOfTheOpcodeByte := by
  refine ⟨fun op => ?_, fun op payload rest i => length_of_decode⟩
  by_cases hmap : op ∈ opcodeTable.map OpcodeRow.opcode
  · obtain ⟨row, hrow, rfl⟩ := List.mem_map.1 hmap
    clear hmap
    revert row
    decide
  · rw [instrLength_eq_none hmap]
    simp only [opcodeTable, List.map_cons, List.map_nil, List.mem_cons, not_or] at hmap
    simp only [List.mem_cons, hmap, or_self, if_false]

end

