-- ==== Sys2Proof/Proofs/LiteralPush.lean ====
section
/-! The literal pushes (R61 to R72): how the bytes at `PC` are fetched and decoded, the one rule of a literal push at
every width, and the eleven rows of the opcode map that are such a push. -/

namespace Sys2Proof.Proofs.LiteralPush

open Sys2Proof Sys2Proof.Machine

/-! ### The decoder on bytes that begin with a known opcode -/

/-- A known opcode whose payload is not all there (R57 step 3). -/
theorem decode_cons_of_short {op : Byte} {payload : List Byte} {len : Nat} (hlen : instrLength op = some len)
    (h : payload.length < len - 1) : decode (op :: payload) = .error .fetchOutOfRange := by
  simp only [decode, hlen, if_pos h]

/-- A known opcode and its payload, with any bytes after them (R57 step 4). -/
theorem decode_cons_append {op : Byte} {payload : List Byte} {i : Instr} (rest : List Byte)
    (hlen : instrLength op = some (1 + payload.length)) (hi : instrOf op payload = some i) :
    decode (op :: payload ++ rest) = .ok (i, rest) := by
  simp [decode, hlen, hi]

/-! ### A step on the bytes at `PC` -/

/-- Bytes at `PC` that are no more than the longest instruction begin the fetch window (R36). -/
theorem fetchWindow_of_atPc {s : State} {bs : List Byte} (h : AtPc s bs) (hmax : bs.length ≤ maxLength) :
    ∃ rest, s.fetchWindow = bs ++ rest := by
  obtain ⟨-, hplen, hbytes⟩ := h
  have hwindow := fetchWindow_length s
  have htake : s.fetchWindow.take bs.length = bs := by
    refine List.ext_getElem (by rw [List.length_take]; omega) fun k _ hk => ?_
    rw [List.getElem_take, fetchWindow_getElem, hbytes k hk]
  refine ⟨s.fetchWindow.drop bs.length, ?_⟩
  calc s.fetchWindow
    _ = s.fetchWindow.take bs.length ++ s.fetchWindow.drop bs.length := (List.take_append_drop ..).symm
    _ = bs ++ s.fetchWindow.drop bs.length := by rw [htake]

/-- A step runs the instruction whose bytes stand at `PC`. -/
theorem step_of_atPc {s : State} {bs : List Byte} {i : Instr} (h : AtPc s bs) (hmax : bs.length ≤ maxLength)
    (hdecode : ∀ rest, decode (bs ++ rest) = .ok (i, rest)) : step s = exec i s := by
  obtain ⟨rest, hwindow⟩ := fetchWindow_of_atPc h hmax
  have hd : decode s.fetchWindow = .ok (i, rest) := hwindow ▸ hdecode rest
  exact step_fetched h.1 (fetchInstr_ok hd)

/-- An instruction cut short by `PLEN` has at least its opcode byte at `PC`. -/
theorem atPc_opcode_of_cutShort {s : State} {op : Byte} {len : Nat} (h : CutShort s op len) : AtPc s [op] := by
  obtain ⟨hrun, hpc, hop, -⟩ := h
  refine ⟨hrun, hpc, fun k hk => ?_⟩
  obtain rfl : k = 0 := by simpa using hk
  simpa using hop

/-- A step on an instruction cut short by `PLEN` only sets FetchOutOfRange (R156, R158). -/
theorem step_of_cutShort {s : State} {op : Byte} {len : Nat} (h : CutShort s op len)
    (hlen : instrLength op = some len) : step s = .next (s.takeFault .fetchOutOfRange) := by
  obtain ⟨payload, hwindow⟩ := fetchWindow_of_atPc (atPc_opcode_of_cutShort h) (by simp [maxLength])
  obtain ⟨hrun, -, -, hcut⟩ := h
  have hshort : payload.length < len - 1 := by
    have hl := fetchWindow_length s
    rw [hwindow, List.length_append, List.length_singleton] at hl
    omega
  have hd : decode s.fetchWindow = .error .fetchOutOfRange := hwindow ▸ decode_cons_of_short hlen hshort
  exact step_unfetched hrun (fetchInstr_error hd)

/-! ### The rule of a literal push -/

/-- `mk` is the literal push of `w` bits with the opcode byte `op`: how it is read (R50, R54) and what it runs (R61). -/
structure IsLiteralPush (op : Byte) {w : Nat} (mk : BitVec w → Instr) : Prop where
  wholeBytes : w % 8 = 0
  width_le : w / 8 ≤ 8
  length : instrLength op = some (1 + w / 8)
  decoded : ∀ payload, instrOf op payload = some (mk (fieldBE w payload))
  executed : ∀ imm s, exec (mk imm) s = s.finish (pushLiteral imm s)

section
variable {op : Byte} {w : Nat} {mk : BitVec w → Instr}

theorem IsLiteralPush.decode_append (h : IsLiteralPush op mk) (imm : BitVec w) (rest : List Byte) :
    decode (op :: toBE (w / 8) imm.toNat ++ rest) = .ok (mk imm, rest) := by
  apply decode_cons_append
  · rw [toBE_length, h.length]
  · rw [h.decoded, fieldBE_toBE imm h.wholeBytes]

theorem IsLiteralPush.exec_overflows (h : IsLiteralPush op mk) (imm : BitVec w) {s : State}
    (hover : s.params.stackCap.toNat < s.sp.toNat + w / 8) :
    exec (mk imm) s = .next (s.takeFault .stackOverflow) := by
  rw [h.executed, pushLiteral_overflows hover, finish_error]

theorem IsLiteralPush.exec_fits (h : IsLiteralPush op mk) (imm : BitVec w) {s : State}
    (hfits : s.sp.toNat + w / 8 ≤ s.params.stackCap.toNat) :
    exec (mk imm) s = .next { (s.pushed imm).advance (1 + w / 8) with status := .success } := by
  rw [h.executed, pushLiteral_fits hfits, finish_ok]

/-- A literal push follows R61, whatever its width. -/
theorem IsLiteralPush.rule (h : IsLiteralPush op mk) (imm : BitVec w) :
    LiteralPushRule (mk imm) op (toBE (w / 8) imm.toNat) (w / 8) imm.toNat := by
  refine ⟨fun s hcut => ?_, fun s hat => ?_, fun s hover => ?_, fun s hfits => ⟨_, h.exec_fits imm hfits, ?_⟩⟩
  · exact step_of_cutShort hcut h.length
  · have hmax : (op :: toBE (w / 8) imm.toNat).length ≤ maxLength := by
      rw [List.length_cons, toBE_length]
      exact Nat.succ_le_succ h.width_le
    exact step_of_atPc hat hmax (h.decode_append imm)
  · exact h.exec_overflows imm hover
  · exact leavesValue_of_pushed imm (1 + w / 8) rfl rfl rfl rfl rfl rfl rfl hfits

end

end Sys2Proof.Proofs.LiteralPush

open Sys2Proof Sys2Proof.Proofs.LiteralPush

/-- Settles O21: each of the eleven constructors is the literal push of its opcode byte's row, and every literal push
follows R61. -/
theorem literalPushesFollowTheirRule : Obligations.LiteralPushesFollowTheirRule := by
  refine ⟨IsLiteralPush.rule (mk := .pushBool) ?_, IsLiteralPush.rule (mk := .pushU8) ?_,
    IsLiteralPush.rule (mk := .pushU16) ?_, IsLiteralPush.rule (mk := .pushU32) ?_,
    IsLiteralPush.rule (mk := .pushU64) ?_, IsLiteralPush.rule (mk := .pushS8) ?_,
    IsLiteralPush.rule (mk := .pushS16) ?_, IsLiteralPush.rule (mk := .pushS32) ?_,
    IsLiteralPush.rule (mk := .pushS64) ?_, IsLiteralPush.rule (mk := .pushF32) ?_,
    IsLiteralPush.rule (mk := .pushF64) ?_⟩
  all_goals exact ⟨rfl, by decide, rfl, fun _ => rfl, fun _ _ => rfl⟩

end

