-- ==== Sys2Proof/Proofs/Arithmetic.lean ====
section
/-! `ADD`, `SUB`, `MUL` (R80 to R87): the fault of a Type byte that an opcode does not accept, the one rule of a binary
operator at every width, and why the Types S8 to S64 share their arithmetic with U8 to U64 (R84). -/

namespace Sys2Proof.Proofs.Arithmetic

open Sys2Proof Sys2Proof.Machine Sys2Proof.Proofs.LiteralPush

/-! ### A Type byte that the opcode does not accept -/

/-- The Type bytes above 0x0A name no Type (R52). -/
theorem ofId_eq_none {t : Byte} (h : 0x0A < t.toNat) : Ty.ofId t = none := by
  unfold Ty.ofId
  split
  case h_12 => rfl
  all_goals exact absurd h (by decide)

/-- A known opcode with its whole payload that together name no instruction (R55 cases 2 and 3, R57 step 4). -/
theorem decode_cons_append_of_invalid {op : Byte} {payload : List Byte} (rest : List Byte)
    (hlen : instrLength op = some (1 + payload.length)) (hi : instrOf op payload = none) :
    decode (op :: payload ++ rest) = .error .invalidOpcode := by
  simp [decode, hlen, hi]

/-- A step takes the fault of the bytes at `PC` where they are no instruction. -/
theorem step_of_atPc_error {s : State} {bs : List Byte} {e : DecodeError} (h : AtPc s bs) (hmax : bs.length ≤ maxLength)
    (hdecode : ∀ rest, decode (bs ++ rest) = .error e) : step s = .next (s.takeFault (faultOf e)) := by
  obtain ⟨rest, hwindow⟩ := fetchWindow_of_atPc h hmax
  have hd : decode s.fetchWindow = .error e := hwindow ▸ hdecode rest
  exact step_unfetched h.1 (fetchInstr_error hd)

/-- A step on a generic opcode that has no operation for BOOL, with the Type byte of BOOL or one that names no Type, only
sets InvalidOpcode (R87, R153). -/
theorem step_of_invalidType {op t : Byte} {f : Ty → Option Instr} {s : State} (hlen : instrLength op = some 2)
    (hop : instrOf op [t] = (Ty.ofId t).bind f) (hbool : f .bool = none) (ht : t = 0x00 ∨ 0x0A < t.toNat)
    (hat : AtPc s [op, t]) : step s = .next (s.takeFault .invalidOpcode) := by
  have hnone : instrOf op [t] = none := by
    rw [hop]
    obtain rfl | hbig := ht
    · exact hbool
    · rw [ofId_eq_none hbig, Option.bind_none]
  exact step_of_atPc_error hat (by simp [maxLength]) fun rest => decode_cons_append_of_invalid rest hlen hnone

/-! ### The rule of a binary operator -/

/-- `i` is the binary operator `f` on operands of `w` bits, of the bytes `op :: payload`: how it is read (R50, R54) and
what it runs (R80, R90, R101, R102, R110). -/
structure IsBinary (i : Instr) (op : Byte) (payload : List Byte) {w r : Nat} (f : BitVec w → BitVec w → BitVec r) :
    Prop where
  wholeBytes : w % 8 = 0
  result_le : r / 8 ≤ 2 * (w / 8)
  payload_le : payload.length ≤ 8
  length : instrLength op = some (1 + payload.length)
  decoded : instrOf op payload = some i
  executed : ∀ s, exec i s = s.finish (binary (op :: payload).length f s)

section
variable {i : Instr} {op : Byte} {payload : List Byte} {w r : Nat} {f : BitVec w → BitVec w → BitVec r}

theorem IsBinary.exec_underflows (h : IsBinary i op payload f) {s : State} (hfew : s.sp.toNat < 2 * (w / 8)) :
    exec i s = .next (s.takeFault .stackUnderflow) := by
  rw [h.executed, binary_underflows hfew, finish_error]

theorem IsBinary.exec_completes (h : IsBinary i op payload f) {s : State} (hhas : 2 * (w / 8) ≤ s.sp.toNat)
    (hcap : s.sp.toNat ≤ s.params.stackCap.toNat) :
    exec i s = .next { ((s.popped w).pushed (f (s.left w) (s.top w))).advance (op :: payload).length with
      status := .success } := by
  rw [h.executed, binary_completes hhas hcap h.result_le, finish_ok]

/-- A binary operator follows R80, whatever its width and its result's. -/
theorem IsBinary.rule (h : IsBinary i op payload f) : BinaryRule i (op :: payload) f := by
  refine ⟨fun s hat => ?_, fun s hfew => h.exec_underflows hfew, fun s a b hhas hcap ha hb =>
    ⟨_, h.exec_completes hhas hcap, ?_⟩⟩
  · exact step_of_atPc hat (Nat.succ_le_succ h.payload_le) fun rest => decode_cons_append rest h.length h.decoded
  · have hsp := popped_sp_toNat hhas
    have hfit : (s.popped w).sp.toNat + r / 8 ≤ (s.popped w).params.stackCap.toNat := by
      have hle := h.result_le
      rw [hsp, popped_params]
      omega
    rw [left_of_holds h.wholeBytes ha, top_of_holds h.wholeBytes hb, ← hsp]
    exact leavesValue_of_pushed (f a b) (op :: payload).length rfl rfl rfl rfl rfl rfl rfl hfit

end

/-! ### Two's complement arithmetic (R84)

Truncation to `w` bits distributes over the operators, and either reading of an operand truncates to the operand. -/

/-- The low bits of `g` are the same whether the operands are read as unsigned or as two's complement numbers. -/
def IgnoresSign (g : Int → Int → Int) : Prop :=
  ∀ (w : Nat) (a b : BitVec w), BitVec.ofInt w (g a.toInt b.toInt) = BitVec.ofInt w (g a.toNat b.toNat)

theorem ignoresSign_add : IgnoresSign (· + ·) := by
  intro w a b
  simp [BitVec.ofInt_add]

theorem ignoresSign_sub : IgnoresSign (· - ·) := by
  intro w a b
  simp [Int.sub_eq_add_neg, BitVec.ofInt_add, BitVec.ofInt_neg]

theorem ignoresSign_mul : IgnoresSign (· * ·) := by
  intro w a b
  simp [BitVec.ofInt_mul]

/-- An operator that the machine runs on the unsigned values follows the rule of the two's complement values too. -/
theorem IsBinary.signedRule {i : Instr} {op : Byte} {payload : List Byte} {w : Nat} {g : Int → Int → Int}
    (hg : IgnoresSign g)
    (h : IsBinary i op payload (fun a b : BitVec w => BitVec.ofInt w (g a.toNat b.toNat))) :
    BinaryRule i (op :: payload) (fun a b : BitVec w => BitVec.ofInt w (g a.toInt b.toInt)) := by
  simp only [hg w]
  exact h.rule

end Sys2Proof.Proofs.Arithmetic

open Sys2Proof Sys2Proof.Proofs.LiteralPush Sys2Proof.Proofs.Arithmetic

/-- Settles O22: each of the ten constructors is a binary operator of its row, those of the S Types on the unsigned values
of the operands, which a sum modulo `2^N` does not tell from the signed ones. -/
theorem addFollowsItsRule : Obligations.AddFollowsItsRule := by
  refine ⟨fun s hcut => step_of_cutShort hcut rfl, fun s t => step_of_invalidType (f := addOf) rfl rfl rfl,
    IsBinary.rule ?_, IsBinary.rule ?_, IsBinary.rule ?_, IsBinary.rule ?_,
    IsBinary.signedRule ignoresSign_add ?_, IsBinary.signedRule ignoresSign_add ?_,
    IsBinary.signedRule ignoresSign_add ?_, IsBinary.signedRule ignoresSign_add ?_,
    IsBinary.rule ?_, IsBinary.rule ?_⟩
  all_goals exact ⟨rfl, by decide, by decide, rfl, rfl, fun _ => rfl⟩

/-- Settles O23: as O22, for the difference. -/
theorem subFollowsItsRule : Obligations.SubFollowsItsRule := by
  refine ⟨fun s hcut => step_of_cutShort hcut rfl, fun s t => step_of_invalidType (f := subOf) rfl rfl rfl,
    IsBinary.rule ?_, IsBinary.rule ?_, IsBinary.rule ?_, IsBinary.rule ?_,
    IsBinary.signedRule ignoresSign_sub ?_, IsBinary.signedRule ignoresSign_sub ?_,
    IsBinary.signedRule ignoresSign_sub ?_, IsBinary.signedRule ignoresSign_sub ?_,
    IsBinary.rule ?_, IsBinary.rule ?_⟩
  all_goals exact ⟨rfl, by decide, by decide, rfl, rfl, fun _ => rfl⟩

/-- Settles O24: as O22, for the product. -/
theorem mulFollowsItsRule : Obligations.MulFollowsItsRule := by
  refine ⟨fun s hcut => step_of_cutShort hcut rfl, fun s t => step_of_invalidType (f := mulOf) rfl rfl rfl,
    IsBinary.rule ?_, IsBinary.rule ?_, IsBinary.rule ?_, IsBinary.rule ?_,
    IsBinary.signedRule ignoresSign_mul ?_, IsBinary.signedRule ignoresSign_mul ?_,
    IsBinary.signedRule ignoresSign_mul ?_, IsBinary.signedRule ignoresSign_mul ?_,
    IsBinary.rule ?_, IsBinary.rule ?_⟩
  all_goals exact ⟨rfl, by decide, by decide, rfl, rfl, fun _ => rfl⟩

end

section
/-! The width-specific bitwise ANDs (R90 to R94): one rule at every width, and the four rows of the opcode map that
follow it. -/

namespace Sys2Proof.Proofs.Bitwise

open Sys2Proof Sys2Proof.Machine Sys2Proof.Proofs.OperandStack Sys2Proof.Proofs.Arithmetic

/-- An opcode byte with no payload whose instruction runs `BW_AND(w / 8)` follows R90. -/
theorem binaryRule_of_bitAnd {i : Instr} {op : Byte} {w : Nat} (hw : w ∈ [8, 16, 32, 64])
    (hlen : instrLength op = some 1) (hdecoded : instrOf op [] = some i) (hexec : ∀ s, exec i s = bitAnd w s) :
    BinaryRule i [op] (fun a b : BitVec w => a &&& b) :=
  have h : IsBinary i op [] (fun a b : BitVec w => a &&& b) :=
    { wholeBytes := width_mod_eight hw
      result_le := Nat.le_mul_of_pos_left _ Nat.two_pos
      payload_le := Nat.zero_le _
      length := hlen
      decoded := hdecoded
      executed := hexec }
  h.rule

end Sys2Proof.Proofs.Bitwise

open Sys2Proof Sys2Proof.Proofs.Bitwise

/-- Settles O25: each of the four opcode bytes is the row of its width, and runs the one `BW_AND` of R90. -/
theorem bitwiseAndFollowsItsRule : Obligations.BitwiseAndFollowsItsRule := by
  refine ⟨?x8, ?x16, ?x32, ?x64⟩
  all_goals exact binaryRule_of_bitAnd (by decide) rfl rfl fun _ => rfl

end

section
/-! `LOGIC_AND` and `LOGIC_OR` (R100 to R102): the canonical byte of a connective of truth values, and the one rule of the
two opcode bytes. -/

namespace Sys2Proof.Proofs.Logic

open Sys2Proof Sys2Proof.Machine Sys2Proof.Proofs.Arithmetic

/-! ### Truth values and their canonical bytes (R100) -/

@[simp] theorem truth_eq_true_iff (x : Byte) : truth x = true ↔ x ≠ 0 := by
  simp [truth]

/-- The canonical byte of a conjunction (R101). -/
theorem boolByte_truth_and (a b : Byte) :
    boolByte (truth a && truth b) = if a ≠ 0 ∧ b ≠ 0 then 1 else 0 := by
  simp only [boolByte, Bool.and_eq_true, truth_eq_true_iff]

/-- The canonical byte of a disjunction (R102). -/
theorem boolByte_truth_or (a b : Byte) :
    boolByte (truth a || truth b) = if a ≠ 0 ∨ b ≠ 0 then 1 else 0 := by
  simp only [boolByte, Bool.or_eq_true, truth_eq_true_iff]

/-! ### The rule of a logic operator -/

/-- An opcode byte with no payload whose instruction runs the logic frame on the connective `g` follows the rule of the
byte function `f` that `g` is on truth values. -/
theorem binaryRule_of_logic {i : Instr} {op : Byte} {g : Bool → Bool → Bool} {f : Byte → Byte → Byte}
    (hf : ∀ a b, boolByte (g (truth a) (truth b)) = f a b) (hlen : instrLength op = some 1)
    (hdecoded : instrOf op [] = some i) (hexec : ∀ s, exec i s = logic g s) : BinaryRule i [op] f := by
  have h : IsBinary i op [] (fun a b : Byte => boolByte (g (truth a) (truth b))) :=
    { wholeBytes := rfl
      result_le := by decide
      payload_le := Nat.zero_le _
      length := hlen
      decoded := hdecoded
      executed := hexec }
  simpa only [hf] using h.rule

end Sys2Proof.Proofs.Logic

open Sys2Proof Sys2Proof.Proofs.Logic

/-- Settles O26: both opcode bytes run the one logic frame, and the canonical byte of each connective is the byte its rule
names, for operands that are not canonical too. -/
theorem logicFollowsItsRule : Obligations.LogicFollowsItsRule := by
  refine ⟨?and, ?or⟩
  case and => exact binaryRule_of_logic boolByte_truth_and rfl rfl fun _ => rfl
  case or => exact binaryRule_of_logic boolByte_truth_or rfl rfl fun _ => rfl

end

section
/-! `CMP_EQ` (R110 to R112): the fault of a Type byte that names no Type, the canonical byte of the two equalities, and
the one rule of the comparison at every Type. -/

namespace Sys2Proof.Proofs.Compare

open Sys2Proof Sys2Proof.Machine Sys2Proof.Proofs.OperandStack Sys2Proof.Proofs.LiteralPush
  Sys2Proof.Proofs.Arithmetic

/-! ### A Type byte that names no Type -/

/-- A step on `CMP_EQ` with a Type byte above 0x0A only sets InvalidOpcode; BOOL, unlike in R87, is a Type it accepts. -/
theorem step_of_cmpEq_unnamedType {s : State} {t : Byte} (ht : 0x0A < t.toNat) (hat : AtPc s [0x50, t]) :
    step s = .next (s.takeFault .invalidOpcode) := by
  have hnone : instrOf 0x50 [t] = none :=
    calc instrOf 0x50 [t]
      _ = (Ty.ofId t).map cmpEqOf := rfl
      _ = none := by rw [ofId_eq_none ht, Option.map_none]
  exact step_of_atPc_error hat (by simp [maxLength]) fun rest => decode_cons_append_of_invalid rest rfl hnone

/-! ### The canonical byte of an equality -/

/-- The canonical byte of the equality of patterns (R111). -/
theorem boolByte_eqBits {w : Nat} (a b : BitVec w) : boolByte (eqBits a b) = if a = b then 1 else 0 := by
  simp only [boolByte, eqBits, decide_eq_true_eq]

/-- Clearing the sign bit of a pattern by a mask leaves its magnitude. -/
theorem toNat_and_eq_magOf {F : FloatFormat} {w : Nat} {mask : BitVec w} (hmask : mask.toNat = signWeight F - 1)
    (x : BitVec w) : (x &&& mask).toNat = magOf F x.toNat := by
  rw [BitVec.toNat_and, hmask, signWeight, Nat.and_two_pow_sub_one_eq_mod, magOf, signWeight]

/-- A NaN is a pattern whose magnitude is above that of infinity. -/
theorem lt_toNat_and_iff_isNaN {F : FloatFormat} {w : Nat} {mask : BitVec w} (hmask : mask.toNat = signWeight F - 1)
    (x : BitVec w) : infMag F < (x &&& mask).toNat ↔ isNaN F x.toNat = true := by
  rw [toNat_and_eq_magOf hmask, isNaN, decide_eq_true_iff]

/-- A zero is a pattern with no bit but the sign bit. -/
theorem and_eq_zero_iff_isZero {F : FloatFormat} {w : Nat} {mask : BitVec w} (hmask : mask.toNat = signWeight F - 1)
    (x : BitVec w) : x &&& mask = 0 ↔ isZero F x.toNat = true := by
  rw [← BitVec.toNat_inj, toNat_and_eq_magOf hmask, isZero, decide_eq_true_iff, BitVec.ofNat_eq_ofNat,
    BitVec.toNat_zero]

theorem feq_eq_true_iff {F : FloatFormat} {w : Nat} {a b : BitVec w} :
    feq F a b = true ↔ ¬(isNaN F a.toNat = true ∨ isNaN F b.toNat = true) ∧
      ((isZero F a.toNat = true ∧ isZero F b.toNat = true) ∨ a = b) := by
  simp [feq]

/-- The canonical byte of the float equality, by the cases of R112 in their order: a NaN operand, two zeros of either
sign, and the patterns. -/
theorem boolByte_feq {F : FloatFormat} {w inf : Nat} {mask : BitVec w} (hinf : infMag F = inf)
    (hmask : mask.toNat = signWeight F - 1) (a b : BitVec w) :
    boolByte (feq F a b) =
      if inf < (a &&& mask).toNat ∨ inf < (b &&& mask).toNat then 0
      else if a &&& mask = 0 ∧ b &&& mask = 0 then 1
      else if a = b then 1 else 0 := by
  subst hinf
  simp only [boolByte, feq_eq_true_iff, lt_toNat_and_iff_isNaN hmask, and_eq_zero_iff_isZero hmask]
  by_cases hnan : isNaN F a.toNat = true ∨ isNaN F b.toNat = true
  · rw [if_pos hnan, if_neg fun h => h.1 hnan]
  · by_cases hzero : isZero F a.toNat = true ∧ isZero F b.toNat = true
    · rw [if_neg hnan, if_pos hzero, if_pos ⟨hnan, .inl hzero⟩]
    · simp only [hnan, hzero, not_false_eq_true, true_and, false_or, if_false]

/-! ### The rule of a comparison -/

/-- A Type byte of `CMP_EQ` whose instruction runs the comparison frame on the equality `eq` follows the rule of the byte
function `f` that `eq` is. -/
theorem binaryRule_of_compare {i : Instr} {t : Byte} {w : Nat} {eq : BitVec w → BitVec w → Bool}
    {f : BitVec w → BitVec w → Byte} (hf : ∀ a b, boolByte (eq a b) = f a b) (hw : w ∈ [8, 16, 32, 64])
    (hdecoded : instrOf 0x50 [t] = some i) (hexec : ∀ s, exec i s = compare w eq s) : BinaryRule i [0x50, t] f := by
  have h : IsBinary i 0x50 [t] (fun a b : BitVec w => boolByte (eq a b)) :=
    { wholeBytes := width_mod_eight hw
      result_le := (by decide : ∀ w ∈ [8, 16, 32, 64], 8 / 8 ≤ 2 * (w / 8)) w hw
      payload_le := Nat.succ_le_succ (Nat.zero_le _)
      length := rfl
      decoded := hdecoded
      executed := hexec }
  simpa only [hf] using h.rule

end Sys2Proof.Proofs.Compare

open Sys2Proof Sys2Proof.Proofs.LiteralPush Sys2Proof.Proofs.Compare

/-- Settles O27: all eleven Types run the one comparison frame, nine on the equality of patterns and two on the float
equality of their format. -/
theorem cmpEqFollowsItsRule : Obligations.CmpEqFollowsItsRule := by
  refine ⟨?bool, ?u8, ?u16, ?u32, ?u64, ?s8, ?s16, ?s32, ?s64, ?f32, ?f64,
    fun s hcut => step_of_cutShort hcut rfl, fun s t => step_of_cmpEq_unnamedType⟩
  case f32 => exact binaryRule_of_compare (boolByte_feq rfl rfl) (by decide) rfl fun _ => rfl
  case f64 => exact binaryRule_of_compare (boolByte_feq rfl rfl) (by decide) rfl fun _ => rfl
  all_goals exact binaryRule_of_compare boolByte_eqBits (by decide) rfl fun _ => rfl

end

section
/-! `JMP` (R120): the target its two payload bytes name, and its range check. -/

namespace Sys2Proof.Proofs.Control

open Sys2Proof Sys2Proof.Machine Sys2Proof.Proofs.LiteralPush

/-! ### The instruction that the bytes name -/

/-- The two bytes of a target, most significant first (R31, R54). -/
theorem fieldBE_pair (hi lo : Byte) : fieldBE 16 [hi, lo] = BitVec.ofNat 16 (hi.toNat * 256 + lo.toNat) := by
  simp [fieldBE, fromBE_cons]

theorem decode_jmp (hi lo : Byte) (rest : List Byte) :
    decode ([0x60, hi, lo] ++ rest) = .ok (.jmp (BitVec.ofNat 16 (hi.toNat * 256 + lo.toNat)), rest) := by
  rw [← fieldBE_pair]
  exact decode_cons_append rest rfl rfl

theorem step_of_jmp_atPc {s : State} {hi lo : Byte} (h : AtPc s [0x60, hi, lo]) :
    step s = exec (.jmp (BitVec.ofNat 16 (hi.toNat * 256 + lo.toNat))) s :=
  step_of_atPc h (by simp [maxLength]) (decode_jmp hi lo)

/-! ### What the jump does -/

theorem exec_jmp (target : Word16) (s : State) : exec (.jmp target) s = s.finish (jumpTo target s) := rfl

theorem jumpTo_outOfRange {s : State} {target : Word16} (h : s.plen.toNat ≤ target.toNat) :
    jumpTo target s = .error .jumpOutOfRange := if_pos h

theorem jumpTo_inRange {s : State} {target : Word16} (h : target.toNat < s.plen.toNat) :
    jumpTo target s = .ok { s with pc := target } := if_neg (Nat.not_le_of_lt h)

/-- A target that is no byte of the program: only the fault is recorded (R120, R158). -/
theorem exec_jmp_outOfRange {s : State} {target : Word16} (h : s.plen.toNat ≤ target.toNat) :
    exec (.jmp target) s = .next (s.takeFault .jumpOutOfRange) := by
  rw [exec_jmp, jumpTo_outOfRange h, finish_error]

/-- A target inside the program becomes `PC` itself: the length of the `JMP` is not added to it (R120). -/
theorem exec_jmp_inRange {s : State} {target : Word16} (h : target.toNat < s.plen.toNat) :
    exec (.jmp target) s = .next { s with pc := target, status := .success } := by
  rw [exec_jmp, jumpTo_inRange h, finish_ok]

end Sys2Proof.Proofs.Control

open Sys2Proof Sys2Proof.Proofs.LiteralPush Sys2Proof.Proofs.Control

/-- Settles O28: the bytes at `PC` are fetched as every instruction's are, and the range check of R120 has two ends. -/
theorem jumpFollowsItsRule : Obligations.JumpFollowsItsRule := by
  refine ⟨fun s hcut => ?cutShort, fun s hi lo hat => ?fetched, fun s target hout => ?outOfRange,
    fun s target hin => ?inRange⟩
  case cutShort => exact step_of_cutShort hcut rfl
  case fetched => exact step_of_jmp_atPc hat
  case outOfRange => exact exec_jmp_outOfRange hout
  case inRange => exact exec_jmp_inRange hin

end

section
/-! `Append` and the builders (R131 to R133, R142): all bytes stored at the end of the program or none, and the bytes
each builder hands to `Append`. -/

namespace Sys2Proof.Proofs.ProgramBuilder

open Sys2Proof Sys2Proof.Machine

/-! ### Bytes written from an address on -/

/-- The bytes written stand in their order from the address on. -/
theorem read_writeBytes_add (m : Memory) (a k : Nat) (bs : List Byte) (h : k < bs.length) :
    (m.writeBytes a bs).read (a + k) = bs[k] := by
  rw [read_writeBytes, dif_pos ⟨Nat.le_add_right a k, Nat.add_lt_add_left h a⟩]
  simp only [Nat.add_sub_cancel_left]

/-- `outside_writeBytes` for any bytes, not only those of a number. -/
theorem sameOutside_writeBytes (m : Memory) (a : Nat) (bs : List Byte) :
    SameOutside m (m.writeBytes a bs) a bs.length := by
  intro b houtside
  rw [read_writeBytes, dif_neg (by omega)]

/-! ### `Append` (R142) -/

/-- The state after an append that fits. -/
def appended (s : State) (bs : List Byte) : State :=
  { s with prog := s.prog.writeBytes s.plen.toNat bs, plen := s.plen + BitVec.ofNat 16 bs.length }

theorem append_fits {s : State} {bs : List Byte} (h : s.plen.toNat + bs.length ≤ s.params.progCap.toNat) :
    s.append bs = (.appended, appended s bs) := if_neg (Nat.not_lt_of_le h)

theorem append_full {s : State} {bs : List Byte} (h : s.params.progCap.toNat < s.plen.toNat + bs.length) :
    s.append bs = (.capacityFault, s) := if_pos h

/-- `PLEN` after an append that fits: it does not wrap, because the capacity has 16 bits. -/
theorem appended_plen_toNat {s : State} {bs : List Byte} (h : s.plen.toNat + bs.length ≤ s.params.progCap.toNat) :
    (appended s bs).plen.toNat = s.plen.toNat + bs.length := by
  have hcap := s.params.progCap.isLt
  simp only [appended, BitVec.toNat_add, BitVec.toNat_ofNat]
  omega

/-! ### The builders (R131, R132, R133) -/

/-- A command that has bytes is a builder, and runs as `Append` of them. -/
theorem run_of_bytes_ne_nil {c : Command} (s : State) (h : c.bytes ≠ []) : c.run s = appendReply s c.bytes := by
  cases c
  case erase | getLine | finished | printOpcodeAt | opcodeName | statusName | step | cleanRun | read | clear =>
    exact absurd rfl h
  all_goals rfl

/-- The form a builder's rule uses: its opcode byte and its payload written out. -/
theorem run_of_bytes_eq {c : Command} {op : Byte} {payload : List Byte} (s : State) (h : c.bytes = op :: payload) :
    c.run s = appendReply s (op :: payload) := by
  rw [run_of_bytes_ne_nil s (h ▸ List.cons_ne_nil op payload), h]

/-! ### The bytes of a literal by division, most significant first (R31) -/

theorem toBE_one (v : Nat) : toBE 1 v = [BitVec.ofNat 8 v] := by
  simp [toBE_succ, byteOf]

theorem toBE_two (v : Nat) : toBE 2 v = [BitVec.ofNat 8 (v / 256), BitVec.ofNat 8 v] := by
  rw [toBE_succ, toBE_one, byteOf, pow_one]

theorem toBE_four (v : Nat) :
    toBE 4 v = [BitVec.ofNat 8 (v / 16777216), BitVec.ofNat 8 (v / 65536), BitVec.ofNat 8 (v / 256),
      BitVec.ofNat 8 v] := by
  rw [toBE_succ, toBE_succ, toBE_two]
  rfl

theorem toBE_eight (v : Nat) :
    toBE 8 v = [BitVec.ofNat 8 (v / 72057594037927936), BitVec.ofNat 8 (v / 281474976710656),
      BitVec.ofNat 8 (v / 1099511627776), BitVec.ofNat 8 (v / 4294967296), BitVec.ofNat 8 (v / 16777216),
      BitVec.ofNat 8 (v / 65536), BitVec.ofNat 8 (v / 256), BitVec.ofNat 8 v] := by
  rw [toBE_succ, toBE_succ, toBE_succ, toBE_succ, toBE_four]
  rfl

end Sys2Proof.Proofs.ProgramBuilder

open Sys2Proof Sys2Proof.Machine Sys2Proof.Proofs.ProgramBuilder

/-- Settles O43: an append that fits answers `appended`, whose bytes and frame are those of `Memory.writeBytes`. -/
theorem appendIsAllOrNothing : Obligations.AppendIsAllOrNothing := by
  intro s bs _ _
  refine ⟨append_full, fun hfits =>
    ⟨appended s bs, append_fits hfits, appended_plen_toNat hfits, ?inOrder, ?frame, rfl⟩⟩
  case inOrder => exact fun k hk => read_writeBytes_add s.prog s.plen.toNat k bs hk
  case frame => exact sameOutside_writeBytes s.prog s.plen.toNat bs

/-- Settles O44: every builder is `Append` of its command's bytes, and a literal's bytes are its big-endian ones. -/
theorem buildersAppendTheirBytes : Obligations.BuildersAppendTheirBytes := by
  refine ⟨?bool, ?u8, ?u16, ?u32, ?u64, ?s8, ?s16, ?s32, ?s64, ?f32, ?f64, ?bare, ?typed, ?jmp⟩
  case bool | bare => exact fun s _ => run_of_bytes_eq s rfl
  case u8 | s8 => exact fun s v => run_of_bytes_eq s (congrArg _ (toBE_one v.toNat))
  case u16 | s16 | jmp => exact fun s v => run_of_bytes_eq s (congrArg _ (toBE_two v.toNat))
  case u32 | s32 | f32 => exact fun s v => run_of_bytes_eq s (congrArg _ (toBE_four v.toNat))
  case u64 | s64 | f64 => exact fun s v => run_of_bytes_eq s (congrArg _ (toBE_eight v.toNat))
  case typed =>
    intro s op t
    refine run_of_bytes_eq s ?_
    cases t <;> rfl

end

section
/-! The host's reads and resets (R130, R134, R135, R138, R139, R141): what `read<T>` makes of the top bytes, when the
program is finished, and what `erase` and `clear` leave of each side. -/

namespace Sys2Proof.Proofs.HostQueries

open Sys2Proof Sys2Proof.Machine

/-! ### `read<T>` (R138) -/

/-- The number read from bytes that hold a value is that value, where it has no more bytes than they are. -/
theorem fromBE_readBytes_of_holds {m : Memory} {a n v : Nat} (hv : v < 256 ^ n) (h : HoldsBE m a n v) :
    fromBE (m.readBytes a n) = v := by
  have hbytes : m.readBytes a n = toBE n v := by
    have hread := readBytes_eq (m := m) (a := a) (bs := toBE n v) fun k hk => by
      rw [toBE_getElem, h k (toBE_length n v ▸ hk)]
    rwa [toBE_length] at hread
  rw [hbytes, fromBE_toBE, Nat.mod_eq_of_lt hv]

theorem run_read (t : Ty) (draw : Nat) (s : State) :
    Command.run (.read t draw) s = (.value (s.readTop t draw), s) := rfl

/-- With enough bytes on the stack the value does not depend on the call: it is the top bytes' number, read as `T`. -/
theorem readTop_has {s : State} {t : Ty} (draw : Nat) (h : t.width ≤ s.sp.toNat) :
    s.readTop t draw = readAs t (fromBE (s.topBytes t.width)) := if_neg (Nat.not_lt_of_le h)

/-- Top bytes that hold a pattern of the Type's width are read as the Type's reading of the pattern's number. -/
theorem run_read_of_holds {s : State} {t : Ty} {w : Nat} {v : BitVec w} {r : ReadValue} (draw : Nat)
    (hhas : t.width ≤ s.sp.toNat) (hholds : HoldsBE s.stack (s.sp.toNat - t.width) t.width v.toNat)
    (hw : 8 * t.width = w) (hr : readAs t v.toNat = r) :
    Command.run (.read t draw) s = (.value r, s) := by
  have hv : v.toNat < 256 ^ t.width :=
    calc v.toNat
      _ < 2 ^ w := v.isLt
      _ = 256 ^ t.width := by rw [← hw, pow_mul]; rfl
  rw [run_read, readTop_has draw hhas, State.topBytes, fromBE_readBytes_of_holds hv hholds, hr]

/-! ### `finished` (R135) -/

theorem finished_eq_true_iff (s : State) : s.finished = true ↔ s.plen.toNat ≤ s.pc.toNat ∨ s.exitf = true := by
  rw [State.finished, Bool.or_eq_true, decide_eq_true_iff]

/-- `PC` is never past the end of the program in a state that meets the invariant (R12). -/
theorem pc_le_plen_of_wf {s : State} (h : s.wf = true) : s.pc.toNat ≤ s.plen.toNat := by
  simp only [State.wf, Bool.and_eq_true, decide_eq_true_eq] at h
  obtain ⟨⟨⟨⟨⟨⟨⟨-, -⟩, hpc⟩, -⟩, -⟩, -⟩, -⟩, -⟩ := h
  exact hpc

theorem plen_le_pc_iff_of_wf {s : State} (h : s.wf = true) : s.plen.toNat ≤ s.pc.toNat ↔ s.pc = s.plen := by
  rw [← BitVec.toNat_inj]
  exact ⟨fun hend => Nat.le_antisymm (pc_le_plen_of_wf h) hend, fun heq => heq.ge⟩

end Sys2Proof.Proofs.HostQueries

open Sys2Proof Sys2Proof.Machine Sys2Proof.Proofs.HostQueries

/-- Settles O46: bytes that hold a value are read as its number, and each Type's reading of that number is the pattern's
own, because a pattern's number gives the pattern back. -/
theorem readReturnsTheTopAsItsType : Obligations.ReadReturnsTheTopAsItsType := by
  intro s draw
  refine ⟨fun t => by rw [run_read], ?bool, ?u8, ?u16, ?u32, ?u64, ?s8, ?s16, ?s32, ?s64, ?f32, ?f64⟩
  case bool =>
    exact fun v hhas hholds => run_read_of_holds draw hhas hholds rfl (by simp [readAs, truth])
  case u8 | u16 | u32 | u64 => exact fun v hhas hholds => run_read_of_holds draw hhas hholds rfl rfl
  case s8 | s16 | s32 | s64 | f32 | f64 =>
    exact fun v hhas hholds => run_read_of_holds draw hhas hholds rfl (by simp [readAs])

/-- Settles O45: no query has a next state of its own, and `PC` past `PLEN` cannot be in a state of the invariant. -/
theorem queriesAnswerAndChangeNothing : Obligations.QueriesAnswerAndChangeNothing := by
  intro s
  refine ⟨rfl, ?finished, fun hwf => ?_, fun _ => rfl, fun _ => rfl, fun _ => rfl⟩
  case finished =>
    have htruth : s.finished = decide (s.plen.toNat ≤ s.pc.toNat ∨ s.exitf = true) := by
      rw [Bool.eq_iff_iff, finished_eq_true_iff, decide_eq_true_iff]
    rw [← htruth]
    rfl
  · rw [finished_eq_true_iff, plen_le_pc_iff_of_wf hwf]

/-- Settles O40: `erase` zeroes the space of the program and writes no element of the Engine side. -/
theorem eraseResetsTheProgramSideOnly : Obligations.EraseResetsTheProgramSideOnly := fun _ =>
  ⟨rfl, rfl, rfl, rfl, read_zero, rfl, rfl, rfl, rfl, rfl⟩

/-- Settles O41: `clear` zeroes the spaces of the stack and of `MEM` and writes no element of the Program side. -/
theorem clearResetsTheEngineSideOnly : Obligations.ClearResetsTheEngineSideOnly := fun _ =>
  ⟨rfl, read_zero, read_zero, rfl, rfl, rfl, rfl, rfl, rfl⟩

end

section
/-! The decoder and the encoder against each other (R50 to R59): each instruction's bytes as an opcode byte and its
payload, the two round trips, and the bytes that are one instruction. -/

namespace Sys2Proof.Proofs.RoundTrip

open Sys2Proof Sys2Proof.Proofs.EncodedLength Sys2Proof.Proofs.LiteralPush Sys2Proof.Proofs.Arithmetic

/-! ### Encode, then decode -/

/-- The encoder writes an opcode byte and a payload of its length that together name the instruction. -/
theorem encode_eq_cons (i : Instr) :
    ∃ op payload, encode i = op :: payload ∧ instrLength op = some (1 + payload.length) ∧
      instrOf op payload = some i := by
  cases i
  case pushBool imm => exact ⟨_, _, rfl, rfl, congrArg (some ∘ Instr.pushBool) (fieldBE_toBE imm rfl)⟩
  case pushU8 imm => exact ⟨_, _, rfl, rfl, congrArg (some ∘ Instr.pushU8) (fieldBE_toBE imm rfl)⟩
  case pushU16 imm => exact ⟨_, _, rfl, rfl, congrArg (some ∘ Instr.pushU16) (fieldBE_toBE imm rfl)⟩
  case pushU32 imm => exact ⟨_, _, rfl, rfl, congrArg (some ∘ Instr.pushU32) (fieldBE_toBE imm rfl)⟩
  case pushU64 imm => exact ⟨_, _, rfl, rfl, congrArg (some ∘ Instr.pushU64) (fieldBE_toBE imm rfl)⟩
  case pushS8 imm => exact ⟨_, _, rfl, rfl, congrArg (some ∘ Instr.pushS8) (fieldBE_toBE imm rfl)⟩
  case pushS16 imm => exact ⟨_, _, rfl, rfl, congrArg (some ∘ Instr.pushS16) (fieldBE_toBE imm rfl)⟩
  case pushS32 imm => exact ⟨_, _, rfl, rfl, congrArg (some ∘ Instr.pushS32) (fieldBE_toBE imm rfl)⟩
  case pushS64 imm => exact ⟨_, _, rfl, rfl, congrArg (some ∘ Instr.pushS64) (fieldBE_toBE imm rfl)⟩
  case pushF32 imm => exact ⟨_, _, rfl, rfl, congrArg (some ∘ Instr.pushF32) (fieldBE_toBE imm rfl)⟩
  case pushF64 imm => exact ⟨_, _, rfl, rfl, congrArg (some ∘ Instr.pushF64) (fieldBE_toBE imm rfl)⟩
  case jmp target => exact ⟨_, _, rfl, rfl, congrArg (some ∘ Instr.jmp) (fieldBE_toBE target rfl)⟩
  all_goals exact ⟨_, _, rfl, rfl, rfl⟩

theorem decode_encode_append (i : Instr) (rest : List Byte) : decode (encode i ++ rest) = .ok (i, rest) := by
  obtain ⟨op, payload, hbytes, hlen, hi⟩ := encode_eq_cons i
  rw [hbytes]
  exact decode_cons_append rest hlen hi

/-! ### Decode, then encode -/

theorem ofId_eq_some_iff {b : Byte} {t : Ty} : Ty.ofId b = some t ↔ b = t.id := by
  refine ⟨fun h => ?_, fun h => by subst h; cases t <;> rfl⟩
  unfold Ty.ofId at h
  split at h
  all_goals cases h <;> rfl

/-- One payload byte that names a Type is that Type's id (R52). -/
theorem payload_of_typeField {payload : List Byte} {t : Ty} (hlen : payload.length = 1)
    (h : typeField payload = some t) : payload = [t.id] := by
  obtain ⟨b, rfl⟩ := List.length_eq_one_iff.1 hlen
  rw [← ofId_eq_some_iff.1 h]

/-- The instructions of a generic opcode are encoded as its byte and the Type's id (R50, `GEN`). -/
def EncodesAs (op : Byte) (f : Ty → Option Instr) : Prop := ∀ t i, f t = some i → encode i = [op, t.id]

theorem encodesAs_addOf : EncodesAs 0x20 addOf := by
  intro t i h
  cases t <;> cases h <;> rfl

theorem encodesAs_subOf : EncodesAs 0x21 subOf := by
  intro t i h
  cases t <;> cases h <;> rfl

theorem encodesAs_mulOf : EncodesAs 0x22 mulOf := by
  intro t i h
  cases t <;> cases h <;> rfl

theorem encodesAs_cmpEqOf : EncodesAs 0x50 (some ∘ cmpEqOf) := by
  intro t i h
  cases t <;> cases h <;> rfl

theorem encode_of_typeField {op : Byte} {f : Ty → Option Instr} {payload : List Byte} {i : Instr}
    (hf : EncodesAs op f) (hlen : payload.length = 1) (h : (typeField payload).bind f = some i) :
    encode i = op :: payload := by
  obtain ⟨t, ht, hi⟩ := Option.bind_eq_some_iff.1 h
  rw [hf t i hi, payload_of_typeField hlen ht]

/-- The length of a payload, where its opcode's length is known. -/
theorem payload_length {op : Byte} {payload : List Byte} {n : Nat} (hn : instrLength op = some (1 + n))
    (hlen : instrLength op = some (1 + payload.length)) : payload.length = n :=
  Nat.add_left_cancel (Option.some.inj (hlen.symm.trans hn))

/-- The bytes of a field of its payload's width are the payload (R54). -/
theorem cons_toBE_fieldBE {op : Byte} {payload : List Byte} {w n : Nat} (hn : payload.length = n) (hw : n * 8 = w) :
    op :: toBE n (fieldBE w payload).toNat = op :: payload := by
  subst hn
  rw [toBE_fieldBE hw]

/-- A payload of its opcode's length is encoded back from the instruction the two name. -/
theorem encode_of_instrOf {op : Byte} {payload : List Byte} {i : Instr}
    (hlen : instrLength op = some (1 + payload.length)) (h : instrOf op payload = some i) :
    encode i = op :: payload := by
  unfold instrOf at h
  split at h
  -- The literal pushes and JMP: one field.
  case h_1 | h_2 | h_6 => cases h; exact cons_toBE_fieldBE (payload_length (n := 1) rfl hlen) rfl
  case h_3 | h_7 | h_22 => cases h; exact cons_toBE_fieldBE (payload_length (n := 2) rfl hlen) rfl
  case h_4 | h_8 | h_10 => cases h; exact cons_toBE_fieldBE (payload_length (n := 4) rfl hlen) rfl
  case h_5 | h_9 | h_11 => cases h; exact cons_toBE_fieldBE (payload_length (n := 8) rfl hlen) rfl
  -- ADD, SUB, MUL, CMP_EQ: one Type byte.
  case h_12 => exact encode_of_typeField encodesAs_addOf (payload_length (n := 1) rfl hlen) h
  case h_13 => exact encode_of_typeField encodesAs_subOf (payload_length (n := 1) rfl hlen) h
  case h_14 => exact encode_of_typeField encodesAs_mulOf (payload_length (n := 1) rfl hlen) h
  case h_21 =>
    rw [Option.map_eq_bind] at h
    exact encode_of_typeField encodesAs_cmpEqOf (payload_length (n := 1) rfl hlen) h
  case h_24 => cases h
  -- The opcodes without a payload.
  all_goals
    cases h
    rw [List.length_eq_zero_iff.1 (payload_length (n := 0) rfl hlen)]
    rfl

theorem one_le_instrLength {op : Byte} {len : Nat} (h : instrLength op = some len) : 1 ≤ len := by
  obtain ⟨row, -, rfl⟩ := Option.map_eq_some_iff.1 h
  cases hf : row.format <;> simp [Format.length]

/-- What the decoder reads is the encoder's bytes of it. -/
theorem encode_append_of_decode {bs rest : List Byte} {i : Instr} (h : decode bs = .ok (i, rest)) :
    encode i ++ rest = bs := by
  cases bs with
  | nil => cases h
  | cons op payload =>
    obtain ⟨len, hlen, hthere, hi, rfl⟩ := decode_cons_eq_ok h
    have htaken : 1 + (payload.take (len - 1)).length = len := by
      have hpos := one_le_instrLength hlen
      rw [List.length_take]
      omega
    rw [encode_of_instrOf (by rw [htaken, hlen]) hi, List.cons_append, List.take_append_drop]

/-! ### The bytes that are one instruction -/

theorem wellFormedBytes_encode (i : Instr) : wellFormedBytes (encode i) = true := by
  cases i <;> rfl

/-- The ranges of WellFormed.lean give no byte outside the opcode map a payload. -/
theorem payloadLength_eq_none {op : Byte} (h : op ∉ opcodeTable.map OpcodeRow.opcode) : payloadLength op = none := by
  simp only [opcodeTable, List.map_cons, List.map_nil, List.mem_cons, List.not_mem_nil, not_or] at h
  simp only [payloadLength]
  repeat rw [if_neg (by bv_omega)]

/-- The two tables of lengths agree: the decoder's map and the ranges of WellFormed.lean. -/
theorem instrLength_eq (op : Byte) : instrLength op = (payloadLength op).map (1 + ·) := by
  by_cases hmap : op ∈ opcodeTable.map OpcodeRow.opcode
  · obtain ⟨row, hrow, rfl⟩ := List.mem_map.1 hmap
    clear hmap
    revert row
    decide
  · rw [instrLength_eq_none hmap, payloadLength_eq_none hmap, Option.map_none]

theorem mem_opcodes_of_payloadLength {op : Byte} {n : Nat} (h : payloadLength op = some n) :
    op ∈ opcodeTable.map OpcodeRow.opcode := by
  by_contra hmap
  cases (payloadLength_eq_none hmap).symm.trans h

/-- A byte that names no Type is above 0x0A (R52). -/
theorem lt_of_ofId_eq_none {t : Byte} (h : Ty.ofId t = none) : 0x0A < t.toNat := by
  unfold Ty.ofId at h
  split at h
  case h_12 =>
    simp only [imp_false] at *
    bv_omega
  all_goals cases h

/-- No opcode of format `GEN` accepts a Type byte that names no Type (R52, R55 case 2). -/
theorem typeByteOk_of_unnamed {op t : Byte} (h : op ∈ ([0x20, 0x21, 0x22, 0x50] : List Byte)) (ht : 0x0A < t.toNat) :
    typeByteOk op t = false := by
  have hle : decide (t.toNat ≤ 0x0A) = false := decide_eq_false (Nat.not_le_of_lt ht)
  simp only [List.mem_cons, List.not_mem_nil, or_false] at h
  obtain rfl | rfl | rfl | rfl := h
  all_goals simp [typeByteOk, hle]

/-- An opcode of format `GEN` has an instruction for the Type byte of its payload exactly where it accepts the byte,
if its table says so of the Types' ids. -/
theorem isSome_bind_typeField {op : Byte} {payload : List Byte} {f : Ty → Option Instr}
    (hop : op ∈ ([0x20, 0x21, 0x22, 0x50] : List Byte)) (hf : ∀ ty, (f ty).isSome = typeByteOk op ty.id)
    (hlen : payload.length = 1) (t : Byte) :
    ((typeField payload).bind f).isSome = typeByteOk op (payload.headD t) := by
  obtain ⟨b, rfl⟩ := List.length_eq_one_iff.1 hlen
  rw [show typeField [b] = Ty.ofId b from rfl, List.headD_cons]
  cases h : Ty.ofId b with
  | none => rw [typeByteOk_of_unnamed hop (lt_of_ofId_eq_none h)]; rfl
  | some ty => rw [ofId_eq_some_iff.1 h, ← hf]; rfl

theorem isSome_addOf (ty : Ty) : (addOf ty).isSome = typeByteOk 0x20 ty.id := by
  cases ty <;> rfl

theorem isSome_subOf (ty : Ty) : (subOf ty).isSome = typeByteOk 0x21 ty.id := by
  cases ty <;> rfl

theorem isSome_mulOf (ty : Ty) : (mulOf ty).isSome = typeByteOk 0x22 ty.id := by
  cases ty <;> rfl

theorem isSome_cmpEqOf (ty : Ty) : ((some ∘ cmpEqOf) ty).isSome = typeByteOk 0x50 ty.id := by
  cases ty <;> rfl

/-- An opcode byte and a payload of its length name an instruction exactly when the Type byte is accepted. Where there
is no Type byte every byte is, so any `t` may stand for the first byte of an empty payload. -/
theorem isSome_instrOf {op : Byte} {payload : List Byte} (hlen : payloadLength op = some payload.length) (t : Byte) :
    (instrOf op payload).isSome = typeByteOk op (payload.headD t) := by
  have hmap := mem_opcodes_of_payloadLength hlen
  unfold instrOf
  split
  case h_12 => exact isSome_bind_typeField (by decide) isSome_addOf (Option.some.inj hlen).symm t
  case h_13 => exact isSome_bind_typeField (by decide) isSome_subOf (Option.some.inj hlen).symm t
  case h_14 => exact isSome_bind_typeField (by decide) isSome_mulOf (Option.some.inj hlen).symm t
  case h_21 =>
    rw [Option.map_eq_bind]
    exact isSome_bind_typeField (by decide) isSome_cmpEqOf (Option.some.inj hlen).symm t
  case h_24 => simp_all [opcodeTable]
  all_goals rfl

theorem exists_decode_iff_wellFormed (bs : List Byte) :
    (∃ i, decode bs = .ok (i, [])) ↔ wellFormedBytes bs = true := by
  constructor
  · rintro ⟨i, hi⟩
    rw [← encode_append_of_decode hi, List.append_nil]
    exact wellFormedBytes_encode i
  · intro h
    cases bs with
    | nil => cases h
    | cons op payload =>
      simp only [wellFormedBytes, Bool.and_eq_true, decide_eq_true_eq] at h
      obtain ⟨hlen, htype⟩ := h
      rw [← isSome_instrOf hlen, Option.isSome_iff_exists] at htype
      obtain ⟨i, hi⟩ := htype
      have hop : instrLength op = some (1 + payload.length) := by rw [instrLength_eq, hlen, Option.map_some]
      exact ⟨i, by simpa using decode_cons_append [] hop hi⟩

end Sys2Proof.Proofs.RoundTrip

open Sys2Proof Sys2Proof.Proofs.RoundTrip

/-- Settles O1: the encoder writes an opcode byte and a payload that together name the instruction, and the decoder
takes exactly those. -/
theorem decodeOfEncodeIsTheInstruction : Obligations.DecodeOfEncodeIsTheInstruction :=
  decode_encode_append

/-- Settles O2: whatever opcode byte and payload name an instruction, they are its encoding. -/
theorem encodeOfDecodeIsTheBytes : Obligations.EncodeOfDecodeIsTheBytes :=
  fun _ _ _ => encode_append_of_decode

/-- Settles O3: bytes decoded whole are the bytes of an instruction, which are well formed; and of the bytes that are
well formed the opcode byte and the payload name an instruction. -/
theorem decoderReadsExactlyTheWellFormedBytes : Obligations.DecoderReadsExactlyTheWellFormedBytes :=
  exists_decode_iff_wellFormed

/-- Settles O5: each of the nine is the encoding of its instruction, up to the value of the literal, so it decodes to
it. -/
theorem writtenOutWordsDecode : Obligations.WrittenOutWordsDecode :=
  ⟨decode_encode_append (.pushU8 9) [], decode_encode_append (.pushU16 0x00FF) [],
    decode_encode_append (.pushS8 0xFD) [], decode_encode_append (.pushF32 0x3DCCCCCD) [],
    decode_encode_append .addU8 [], decode_encode_append .mulS8 [], decode_encode_append .cmpEqF32 [],
    decode_encode_append (.jmp 11) [], decode_encode_append .exit []⟩

end

section
/-! Fetch, decode and dispatch (R36, R57, R136): the ways a step begins in a state that is not terminal, in the order
of R157's checks, and what follows for the bytes at `PC`. -/

namespace Sys2Proof.Proofs.Dispatch

open Sys2Proof Sys2Proof.Machine Sys2Proof.Proofs.EncodedLength Sys2Proof.Proofs.LiteralPush
  Sys2Proof.Proofs.Arithmetic Sys2Proof.Proofs.RoundTrip

/-! ### Lengths -/

theorem payloadLength_le {op : Byte} {n : Nat} (h : payloadLength op = some n) : n ≤ 8 := by
  revert h
  unfold payloadLength
  dsimp only
  split_ifs
  all_goals
    intro h
    cases h <;> decide

theorem instrLength_of_payloadLength {op : Byte} {n : Nat} (h : payloadLength op = some n) :
    instrLength op = some (1 + n) := by
  rw [instrLength_eq, h, Option.map_some]

theorem length_encode_le (i : Instr) : (encode i).length ≤ maxLength := by
  cases i <;> simp [encode, maxLength]

/-! ### The bytes at `PC` -/

/-- The bytes of the program from `PC` on, up to `PLEN`. -/
theorem atPc_readBytes {s : State} {n : Nat} (hrun : s.status = .success) (hn : s.pc.toNat + n ≤ s.plen.toNat) :
    AtPc s (s.prog.readBytes s.pc.toNat n) :=
  ⟨hrun, by rwa [readBytes_length], fun k hk => (readBytes_getElem _ _ _ k hk).symm⟩

theorem pc_lt_of_atPc {s : State} {op : Byte} {payload : List Byte} (h : AtPc s (op :: payload)) :
    s.pc.toNat < s.plen.toNat := by
  obtain ⟨-, hplen, -⟩ := h
  rw [List.length_cons] at hplen
  omega

theorem read_pc_of_atPc {s : State} {op : Byte} {payload : List Byte} (h : AtPc s (op :: payload)) :
    s.prog.read s.pc.toNat = op := by
  obtain ⟨-, -, hbytes⟩ := h
  exact hbytes 0 (Nat.zero_lt_succ _)

/-- The byte after the opcode byte is the first of the payload, where there is a payload. -/
theorem headD_payload_of_atPc {s : State} {op : Byte} {payload : List Byte} (h : AtPc s (op :: payload)) :
    payload.headD (s.prog.read (s.pc.toNat + 1)) = s.prog.read (s.pc.toNat + 1) := by
  obtain ⟨-, -, hbytes⟩ := h
  cases payload with
  | nil => rfl
  | cons b bs => exact (hbytes 1 (by simp)).symm

theorem read_type_of_atPc {s : State} {op t : Byte} {rest : List Byte} (h : AtPc s (op :: t :: rest)) :
    s.prog.read (s.pc.toNat + 1) = t := (headD_payload_of_atPc h).symm

/-- Whatever is decoded from the window stands at `PC`. -/
theorem atPc_of_decode {s : State} {i : Instr} {rest : List Byte} (hrun : s.status = .success)
    (h : decode s.fetchWindow = .ok (i, rest)) : AtPc s (encode i) := by
  have hwindow : s.fetchWindow = encode i ++ rest := (encode_append_of_decode h).symm
  have hlen := fetchWindow_length s
  have hpos := List.length_pos_of_ne_nil (encode_ne_nil i)
  rw [hwindow, List.length_append] at hlen
  refine ⟨hrun, by omega, fun k hk => ?_⟩
  have hk' : k < s.fetchWindow.length := by
    rw [hwindow, List.length_append]
    omega
  calc s.prog.read (s.pc.toNat + k)
    _ = s.fetchWindow[k] := (fetchWindow_getElem s k hk').symm
    _ = (encode i)[k] := by simp only [hwindow, List.getElem_append_left hk]

/-! ### A step on the bytes at `PC` -/

theorem step_of_atPc_encode {s : State} {i : Instr} (h : AtPc s (encode i)) : step s = exec i s :=
  step_of_atPc h (length_encode_le i) (decode_encode_append i)

/-- With `PC` at or above `PLEN` there is no opcode byte to fetch (R156 case a). -/
theorem step_of_pastEnd {s : State} (hrun : s.status = .success) (h : s.plen.toNat ≤ s.pc.toNat) :
    step s = .next (s.takeFault .fetchOutOfRange) := by
  have hwindow : s.fetchWindow = [] := by
    apply List.eq_nil_of_length_eq_zero
    rw [fetchWindow_length]
    omega
  have hd : decode s.fetchWindow = .error .fetchOutOfRange := by rw [hwindow]; rfl
  exact step_unfetched hrun (fetchInstr_error hd)

/-- A byte outside the opcode map is no instruction, whatever follows it (R55 case 1). -/
theorem decode_cons_of_unknown {op : Byte} (rest : List Byte) (h : instrLength op = none) :
    decode (op :: rest) = .error .invalidOpcode := by
  simp only [decode, h]

theorem step_of_unknownOpcode {s : State} {op : Byte} (h : instrLength op = none) (hat : AtPc s [op]) :
    step s = .next (s.takeFault .invalidOpcode) :=
  step_of_atPc_error hat (by simp [maxLength]) fun rest => decode_cons_of_unknown rest h

/-- An opcode byte with its whole payload, whose Type byte it does not accept (R55 cases 2 and 3). -/
theorem step_of_refusedType {s : State} {op : Byte} {payload : List Byte}
    (hlen : payloadLength op = some payload.length) (htype : typeByteOk op (s.prog.read (s.pc.toNat + 1)) = false)
    (hat : AtPc s (op :: payload)) : step s = .next (s.takeFault .invalidOpcode) := by
  have hnone : instrOf op payload = none := by
    rw [← Option.not_isSome_iff_eq_none, isSome_instrOf hlen, headD_payload_of_atPc hat, htype]
    exact Bool.false_ne_true
  exact step_of_atPc_error hat (Nat.succ_le_succ (payloadLength_le hlen)) fun rest =>
    decode_cons_append_of_invalid rest (instrLength_of_payloadLength hlen) hnone

/-- The opcodes of format `GEN` have one payload byte (R50). -/
theorem payloadLength_of_generic {op : Byte} (h : op ∈ ([0x20, 0x21, 0x22, 0x50] : List Byte)) :
    payloadLength op = some 1 := by
  simp only [List.mem_cons, List.not_mem_nil, or_false] at h
  obtain rfl | rfl | rfl | rfl := h <;> rfl

/-- The three of them that compute a value have no operation for BOOL (R55 case 3, R87). -/
theorem typeByteOk_of_bool {op : Byte} (h : op ∈ ([0x20, 0x21, 0x22] : List Byte)) : typeByteOk op 0x00 = false := by
  simp only [List.mem_cons, List.not_mem_nil, or_false] at h
  obtain rfl | rfl | rfl := h <;> rfl

theorem step_of_generic_refused {s : State} {op t : Byte} (h : op ∈ ([0x20, 0x21, 0x22, 0x50] : List Byte))
    (htype : typeByteOk op t = false) (hat : AtPc s [op, t]) : step s = .next (s.takeFault .invalidOpcode) :=
  step_of_refusedType (payloadLength_of_generic h) (by rwa [read_type_of_atPc hat]) hat

/-- An opcode byte with its whole payload and a Type byte it accepts are the bytes of an instruction. -/
theorem exists_encode_of_atPc {s : State} {op : Byte} {payload : List Byte}
    (hlen : payloadLength op = some payload.length) (htype : typeByteOk op (s.prog.read (s.pc.toNat + 1)) = true)
    (hat : AtPc s (op :: payload)) : ∃ i, encode i = op :: payload := by
  rw [← headD_payload_of_atPc hat, ← isSome_instrOf hlen, Option.isSome_iff_exists] at htype
  obtain ⟨i, hi⟩ := htype
  exact ⟨i, encode_of_instrOf (instrLength_of_payloadLength hlen) hi⟩

/-- The ways a step begins in a state that is not terminal: one of the four checks of R57 fails, in their order, or an
instruction runs whose bytes stand at `PC`. -/
inductive StepBegins (s : State) : Prop
  | pastEnd (hend : s.plen.toNat ≤ s.pc.toNat) (hstep : step s = .next (s.takeFault .fetchOutOfRange))
  | unknownOpcode (hpc : s.pc.toNat < s.plen.toNat) (hop : payloadLength (s.prog.read s.pc.toNat) = none)
      (hstep : step s = .next (s.takeFault .invalidOpcode))
  | cutShort (n : Nat) (hpc : s.pc.toNat < s.plen.toNat) (hop : payloadLength (s.prog.read s.pc.toNat) = some n)
      (hcut : s.plen.toNat < s.pc.toNat + 1 + n) (hstep : step s = .next (s.takeFault .fetchOutOfRange))
  | refusedType (n : Nat) (hop : payloadLength (s.prog.read s.pc.toNat) = some n)
      (hthere : s.pc.toNat + 1 + n ≤ s.plen.toNat)
      (htype : typeByteOk (s.prog.read s.pc.toNat) (s.prog.read (s.pc.toNat + 1)) = false)
      (hstep : step s = .next (s.takeFault .invalidOpcode))
  | runs (i : Instr) (hat : AtPc s (encode i)) (hstep : step s = exec i s)

theorem stepBegins {s : State} (hrun : s.status = .success) : StepBegins s := by
  by_cases hend : s.plen.toNat ≤ s.pc.toNat
  · exact .pastEnd hend (step_of_pastEnd hrun hend)
  have hpc : s.pc.toNat < s.plen.toNat := Nat.lt_of_not_le hend
  cases hop : payloadLength (s.prog.read s.pc.toNat) with
  | none =>
    have hlen : instrLength (s.prog.read s.pc.toNat) = none := by rw [instrLength_eq, hop, Option.map_none]
    exact .unknownOpcode hpc hop (step_of_unknownOpcode hlen (atPc_readBytes (n := 1) hrun hpc))
  | some n =>
    by_cases hcut : s.plen.toNat < s.pc.toNat + 1 + n
    · have hshort : CutShort s (s.prog.read s.pc.toNat) (1 + n) := ⟨hrun, hpc, rfl, by omega⟩
      exact .cutShort n hpc hop hcut (step_of_cutShort hshort (instrLength_of_payloadLength hop))
    · have hat : AtPc s (s.prog.read s.pc.toNat :: s.prog.readBytes (s.pc.toNat + 1) n) :=
        atPc_readBytes (n := n + 1) hrun (by omega)
      have hlen : payloadLength (s.prog.read s.pc.toNat) = some (s.prog.readBytes (s.pc.toNat + 1) n).length := by
        rw [hop, readBytes_length]
      cases htype : typeByteOk (s.prog.read s.pc.toNat) (s.prog.read (s.pc.toNat + 1)) with
      | false => exact .refusedType n hop (by omega) htype (step_of_refusedType hlen htype hat)
      | true =>
        obtain ⟨i, hi⟩ := exists_encode_of_atPc hlen htype hat
        rw [← hi] at hat
        exact .runs i hat (step_of_atPc_encode hat)

/-! ### What an instruction's end says of its faults -/

/-- An instruction that ends in a fault has taken it, one of the three of its own checks. -/
theorem fault_of_ends {i : Instr} {s u : State} {k : Fault} (h : InstrEnds i s u) (hk : u.status = .faulted k) :
    u = s.takeFault k ∧ (k = .stackOverflow ∨ k = .stackUnderflow ∨ k = .jumpOutOfRange) := by
  rcases h with rfl | rfl | rfl | ⟨w, v, -, rfl⟩ | ⟨w, r, f, -, -, -, rfl⟩ | ⟨target, -, -, rfl⟩ | ⟨-, rfl⟩
  case inl | inr.inl | inr.inr.inl =>
    cases hk
    exact ⟨rfl, by decide⟩
  all_goals cases hk

/-- A step that reports a fault has taken it, whatever the state. -/
theorem eq_takeFault_of_step {s t : State} {k : Fault} (h : step s = .next t) (hk : t.status = .faulted k) :
    t = s.takeFault k := by
  rcases step_cases s with ⟨-, hs⟩ | ⟨e, -, -, hs⟩ | ⟨i, rest, u, -, -, hs, hu, hends⟩
  · cases hs.symm.trans h
    rw [State.takeFault, ← hk]
  · cases hs.symm.trans h
    cases hk
    rfl
  · cases (hs.trans hu).symm.trans h
    exact (fault_of_ends hends hk).1

end Sys2Proof.Proofs.Dispatch

open Sys2Proof Sys2Proof.Machine Sys2Proof.Proofs.EncodedLength Sys2Proof.Proofs.LiteralPush
  Sys2Proof.Proofs.RoundTrip Sys2Proof.Proofs.Dispatch

/-- Settles O6: the first clause is a byte outside the opcode map, the next two a Type byte that the opcode does not
accept, and the last is the encoding of `CMP_EQ BOOL`. -/
theorem invalidEncodingsFaultWithInvalidOpcode : Obligations.InvalidEncodingsFaultWithInvalidOpcode := by
  refine ⟨fun s hrun hpc hop => ?opcode, fun s op t hop ht hat => ?unnamed, fun s op hop hat => ?bool,
    fun s hat => ?cmp⟩
  case opcode =>
    exact step_of_unknownOpcode (instrLength_eq_none hop) (atPc_readBytes (n := 1) hrun hpc)
  case unnamed => exact step_of_generic_refused hop (typeByteOk_of_unnamed hop ht) hat
  case bool =>
    have hgeneric : op ∈ ([0x20, 0x21, 0x22, 0x50] : List Byte) := List.mem_append_left [0x50] hop
    exact step_of_generic_refused hgeneric (typeByteOk_of_bool hop) hat
  case cmp => exact step_of_atPc_encode (i := .cmpEqBool) hat

/-- Settles O7: a running step runs what it fetched. -/
theorem stepRunsTheDecodedInstruction : Obligations.StepRunsTheDecodedInstruction :=
  fun _ _ _ hrun hd => step_fetched hrun (fetchInstr_ok hd)

/-- Settles O8: the encoder's bytes at `PC` begin the fetch window, and they decode to the instruction (O1). -/
theorem stepRunsTheEncodedInstructionAtPc : Obligations.StepRunsTheEncodedInstructionAtPc :=
  fun _ _ => step_of_atPc_encode

/-- Settles O9: a step that reports the fault began with one of the two checks of R156, because no check of an
instruction's own raises it. -/
theorem fetchPastTheProgramFaults : Obligations.FetchPastTheProgramFaults := by
  intro s hrun
  refine ⟨step_of_pastEnd hrun, fun op len hlen hcut => step_of_cutShort hcut hlen,
    fun t hstep hfault => ?_⟩
  cases stepBegins hrun with
  | pastEnd hend _ => exact .inl hend
  | cutShort n _ hop hcut _ =>
    exact .inr ⟨1 + n, instrLength_of_payloadLength hop, by omega⟩
  | unknownOpcode _ _ hs | refusedType _ _ _ _ hs =>
    cases hs.symm.trans hstep
    cases hfault
  | runs i _ hs =>
    obtain ⟨u, hu, hends⟩ := exec_cases i s
    cases (hs.trans hu).symm.trans hstep
    obtain ⟨-, hk⟩ := fault_of_ends hends hfault
    exact absurd hk (by decide)

/-- Settles O11: whether the fetch or the instruction raised the fault, the step has taken it in the state it began
in. -/
theorem faultChangesNothingButStatus : Obligations.FaultChangesNothingButStatus :=
  fun _ _ _ => eq_takeFault_of_step

end

section
/-! The first fault (R157): the four kinds of instructions, and each kind's own checks against `firstFault`. -/

namespace Sys2Proof.Proofs.FirstFault

open Sys2Proof Sys2Proof.Machine Sys2Proof.Proofs.LiteralPush Sys2Proof.Proofs.Arithmetic
  Sys2Proof.Proofs.RoundTrip Sys2Proof.Proofs.Dispatch Sys2Proof.Proofs.Control

/-! ### The four kinds of instructions -/

/-- An instruction is a literal push, a binary operator, the jump or the exit: its bytes, what it runs, and the part
of the opcode map that it stands in, with the number of bytes that `poppedBytes` gives it. -/
inductive InstrKind : Instr → Prop
  | literalPush {i : Instr} {op : Byte} {w : Nat} (imm : BitVec w) (hbytes : encode i = op :: toBE (w / 8) imm.toNat)
      (hexec : ∀ s, exec i s = s.finish (pushLiteral imm s)) (hop : op.toNat < 0x20) : InstrKind i
  | binary {i : Instr} {op : Byte} {payload : List Byte} {w r : Nat} {f : BitVec w → BitVec w → BitVec r}
      (hbytes : encode i = op :: payload) (hexec : ∀ s, exec i s = s.finish (binary (op :: payload).length f s))
      (hresult : r / 8 ≤ 2 * (w / 8)) (hlow : 0x20 ≤ op.toNat) (hjmp : op ≠ 0x60)
      (hpopped : ∀ t, poppedBytes op (payload.headD t) = 2 * (w / 8)) : InstrKind i
  | jmp (target : Word16) : InstrKind (.jmp target)
  | exit : InstrKind .exit

theorem instrKind (i : Instr) : InstrKind i := by
  cases i
  case jmp target => exact .jmp target
  case exit => exact .exit
  case pushBool imm | pushU8 imm | pushU16 imm | pushU32 imm | pushU64 imm | pushS8 imm | pushS16 imm | pushS32 imm
      | pushS64 imm | pushF32 imm | pushF64 imm => exact .literalPush imm rfl (fun _ => rfl) (by decide)
  all_goals exact .binary rfl (fun _ => rfl) (by decide) (by decide) (by decide) fun _ => rfl

/-- The bytes of an instruction pass the checks of R157 that concern bytes alone. -/
theorem checks_of_encode {i : Instr} {op : Byte} {payload : List Byte} (h : encode i = op :: payload) :
    payloadLength op = some payload.length ∧ ∀ t, typeByteOk op (payload.headD t) = true := by
  have hwf := wellFormedBytes_encode i
  simp only [h, wellFormedBytes, Bool.and_eq_true, decide_eq_true_eq] at hwf
  obtain ⟨hlen, -⟩ := hwf
  obtain ⟨op', payload', h', -, hi⟩ := encode_eq_cons i
  cases h.symm.trans h'
  exact ⟨hlen, fun t => by rw [← isSome_instrOf hlen, hi, Option.isSome_some]⟩

/-! ### The checks of `firstFault` one after the other -/

section
variable {s : State} {n : Nat}

theorem firstFault_of_pastEnd (h : s.plen.toNat ≤ s.pc.toNat) : firstFault s = some .fetchOutOfRange := by
  simp only [firstFault, if_pos h]

theorem firstFault_of_unknownOpcode (hpc : s.pc.toNat < s.plen.toNat)
    (hop : payloadLength (s.prog.read s.pc.toNat) = none) : firstFault s = some .invalidOpcode := by
  simp only [firstFault, if_neg (Nat.not_le_of_lt hpc), hop]

theorem firstFault_of_cutShort (hpc : s.pc.toNat < s.plen.toNat)
    (hop : payloadLength (s.prog.read s.pc.toNat) = some n) (hcut : s.plen.toNat < s.pc.toNat + 1 + n) :
    firstFault s = some .fetchOutOfRange := by
  simp only [firstFault, if_neg (Nat.not_le_of_lt hpc), hop, if_pos hcut]

theorem firstFault_of_refusedType (hop : payloadLength (s.prog.read s.pc.toNat) = some n)
    (hthere : s.pc.toNat + 1 + n ≤ s.plen.toNat)
    (htype : typeByteOk (s.prog.read s.pc.toNat) (s.prog.read (s.pc.toNat + 1)) = false) :
    firstFault s = some .invalidOpcode := by
  have hpc : ¬ s.plen.toNat ≤ s.pc.toNat := by omega
  simp only [firstFault, if_neg hpc, hop, if_neg (Nat.not_lt_of_le hthere), htype, if_true]

end

/-- With the bytes of an instruction at `PC` the checks of the stack and of the target are left. -/
theorem firstFault_of_atPc {s : State} {i : Instr} {op : Byte} {payload : List Byte} (hbytes : encode i = op :: payload)
    (hat : AtPc s (op :: payload)) :
    firstFault s =
      if s.sp.toNat < poppedBytes op (s.prog.read (s.pc.toNat + 1)) then some .stackUnderflow
      else if op.toNat < 0x20 ∧ s.params.stackCap.toNat < s.sp.toNat + payload.length then some .stackOverflow
      else if op = 0x60 ∧ s.plen.toNat ≤ (s.prog.read (s.pc.toNat + 1)).toNat * 256
          + (s.prog.read (s.pc.toNat + 2)).toNat then some .jumpOutOfRange
      else none := by
  obtain ⟨hlen, htype⟩ := checks_of_encode hbytes
  have htype' := headD_payload_of_atPc hat ▸ htype (s.prog.read (s.pc.toNat + 1))
  have hpc := pc_lt_of_atPc hat
  have hop := read_pc_of_atPc hat
  have hthere : ¬ s.plen.toNat < s.pc.toNat + 1 + payload.length := by
    obtain ⟨-, hplen, -⟩ := hat
    rw [List.length_cons] at hplen
    omega
  simp only [firstFault, hop, if_neg (Nat.not_le_of_lt hpc), hlen, if_neg hthere, htype', Bool.true_eq_false, if_false]

/-! ### Each kind's own checks -/

/-- No opcode below 0x20 pops a byte. -/
theorem poppedBytes_of_lt {op : Byte} (h : op.toNat < 0x20) (t : Byte) : poppedBytes op t = 0 := by
  simp only [poppedBytes]
  repeat rw [if_neg (by omega)]

theorem firstFault_of_literalPush {s : State} {i : Instr} {op : Byte} {lit : List Byte} (hop : op.toNat < 0x20)
    (hbytes : encode i = op :: lit) (hat : AtPc s (op :: lit)) :
    firstFault s = if s.params.stackCap.toNat < s.sp.toNat + lit.length then some .stackOverflow else none := by
  have hjmp : op ≠ 0x60 := by
    rintro rfl
    exact absurd hop (by decide)
  simp only [firstFault_of_atPc hbytes hat, poppedBytes_of_lt hop, Nat.not_lt_zero, hop, hjmp, true_and, false_and,
    if_false]

theorem firstFault_of_operator {s : State} {i : Instr} {op : Byte} {payload : List Byte} {n : Nat}
    (hop : 0x20 ≤ op.toNat) (hjmp : op ≠ 0x60) (hpopped : ∀ t, poppedBytes op (payload.headD t) = n)
    (hbytes : encode i = op :: payload) (hat : AtPc s (op :: payload)) :
    firstFault s = if s.sp.toNat < n then some .stackUnderflow else none := by
  have hpop := headD_payload_of_atPc hat ▸ hpopped (s.prog.read (s.pc.toNat + 1))
  simp only [firstFault_of_atPc hbytes hat, hpop, Nat.not_lt_of_le hop, hjmp, false_and, if_false]

/-- The bytes of a jump are its opcode byte and two bytes whose number is its target. -/
theorem encode_jmp (target : Word16) :
    ∃ hi lo : Byte, encode (.jmp target) = [0x60, hi, lo] ∧ target.toNat = hi.toNat * 256 + lo.toNat := by
  refine ⟨byteOf 1 target.toNat, byteOf 0 target.toNat, rfl, ?_⟩
  have := target.isLt
  simp only [byteOf, BitVec.toNat_ofNat]
  omega

theorem firstFault_of_jmp {s : State} {target : Word16} (hat : AtPc s (encode (.jmp target))) :
    firstFault s = if s.plen.toNat ≤ target.toNat then some .jumpOutOfRange else none := by
  obtain ⟨hi, lo, hbytes, htarget⟩ := encode_jmp target
  rw [hbytes] at hat
  have h1 : s.prog.read (s.pc.toNat + 1) = hi := read_type_of_atPc hat
  have h2 : s.prog.read (s.pc.toNat + 2) = lo := by
    obtain ⟨-, -, hread⟩ := hat
    exact hread 2 (by simp)
  have hpop : poppedBytes 0x60 hi = 0 := rfl
  have hlow : ¬ (0x60 : Byte).toNat < 0x20 := by decide
  simp only [firstFault_of_atPc hbytes hat, h1, h2, hpop, Nat.not_lt_zero, hlow, false_and, true_and, if_false, htarget]

/-- The status is a fault exactly where `f` is one, and then that fault. -/
def Reports (u : State) (f : Option Fault) : Prop := ∀ k, u.status = .faulted k ↔ f = some k

theorem reports_takeFault (s : State) (k : Fault) : Reports (s.takeFault k) (some k) := by
  intro k'
  rw [takeFault_status, Status.faulted.injEq, Option.some.injEq]

theorem reports_none {u : State} (h : ∀ k, u.status ≠ .faulted k) : Reports u none :=
  fun k => ⟨fun hk => absurd hk (h k), nofun⟩

/-- An instruction with its bytes at `PC` reports the first fault. -/
theorem exec_reports_firstFault {s : State} {i : Instr} (hat : AtPc s (encode i))
    (hcap : s.sp.toNat ≤ s.params.stackCap.toNat) : ∃ t, exec i s = .next t ∧ Reports t (firstFault s) := by
  cases instrKind i with
  | literalPush imm hbytes hexec hop =>
    rw [firstFault_of_literalPush hop hbytes (hbytes ▸ hat), toBE_length, hexec]
    rcases pushLiteral_cases s imm with ⟨hover, hp⟩ | ⟨hfits, hp⟩
    · rw [hp, if_pos hover]
      exact ⟨_, rfl, reports_takeFault s _⟩
    · rw [hp, if_neg (Nat.not_lt_of_le hfits)]
      exact ⟨_, rfl, reports_none nofun⟩
  | @binary _ _ _ w _ _ hbytes hexec hresult hlow hjmp hpopped =>
    rw [firstFault_of_operator hlow hjmp hpopped hbytes (hbytes ▸ hat), hexec]
    by_cases hfew : s.sp.toNat < 2 * (w / 8)
    · rw [binary_underflows hfew, if_pos hfew]
      exact ⟨_, rfl, reports_takeFault s _⟩
    · rw [binary_completes (Nat.le_of_not_lt hfew) hcap hresult, if_neg hfew]
      exact ⟨_, rfl, reports_none nofun⟩
  | jmp target =>
    rw [firstFault_of_jmp hat]
    by_cases hout : s.plen.toNat ≤ target.toNat
    · rw [exec_jmp_outOfRange hout, if_pos hout]
      exact ⟨_, rfl, reports_takeFault s _⟩
    · rw [exec_jmp_inRange (Nat.lt_of_not_le hout), if_neg hout]
      exact ⟨_, rfl, reports_none nofun⟩
  | exit =>
    rw [firstFault_of_operator (i := .exit) (n := 0) (by decide) (by decide) (fun _ => rfl) rfl hat,
      if_neg (Nat.not_lt_zero _)]
    exact ⟨_, rfl, reports_none nofun⟩

end Sys2Proof.Proofs.FirstFault

open Sys2Proof Sys2Proof.Machine Sys2Proof.Proofs.Dispatch Sys2Proof.Proofs.FirstFault

/-- Settles O10: each way a step begins is a check of `firstFault`, and where an instruction runs its kind's own check
is the one that is left. -/
theorem stepReportsExactlyTheFirstFault : Obligations.StepReportsExactlyTheFirstFault := by
  intro s hrun hcap
  cases stepBegins hrun with
  | pastEnd hend hs => exact ⟨_, hs, firstFault_of_pastEnd hend ▸ reports_takeFault s _⟩
  | unknownOpcode hpc hop hs => exact ⟨_, hs, firstFault_of_unknownOpcode hpc hop ▸ reports_takeFault s _⟩
  | cutShort n hpc hop hcut hs => exact ⟨_, hs, firstFault_of_cutShort hpc hop hcut ▸ reports_takeFault s _⟩
  | refusedType n hop hthere htype hs =>
    exact ⟨_, hs, firstFault_of_refusedType hop hthere htype ▸ reports_takeFault s _⟩
  | runs i hat hs => exact hs ▸ exec_reports_firstFault hat hcap

end

section
/-! What a step leaves unchanged (R11, R13, R17): the spaces and registers that no instruction's end writes, and the
exit flag, which the end of `EXIT` alone sets. -/

namespace Sys2Proof.Proofs.StepFrame

open Sys2Proof Sys2Proof.Machine Sys2Proof.Proofs.LiteralPush Sys2Proof.Proofs.Arithmetic
  Sys2Proof.Proofs.RoundTrip Sys2Proof.Proofs.Dispatch Sys2Proof.Proofs.FirstFault Sys2Proof.Proofs.Control

/-! ### The spaces that no step writes -/

/-- The capacities, the program and the data memory are the same in both states. -/
def KeepsProgramAndData (s t : State) : Prop :=
  t.params = s.params ∧ t.plen = s.plen ∧ t.prog = s.prog ∧ t.mem = s.mem

theorem keepsProgramAndData_of_ends {i : Instr} {s u : State} (h : InstrEnds i s u) : KeepsProgramAndData s u := by
  rcases h with rfl | rfl | rfl | ⟨w, v, -, rfl⟩ | ⟨w, r, f, -, -, -, rfl⟩ | ⟨target, -, -, rfl⟩ | ⟨-, rfl⟩
  all_goals exact ⟨rfl, rfl, rfl, rfl⟩

theorem keepsProgramAndData_of_step {s t : State} (h : step s = .next t) : KeepsProgramAndData s t := by
  rcases step_cases s with ⟨-, hs⟩ | ⟨e, -, -, hs⟩ | ⟨i, rest, u, -, -, hs, hu, hends⟩
  · cases hs.symm.trans h
    exact ⟨rfl, rfl, rfl, rfl⟩
  · cases hs.symm.trans h
    exact ⟨rfl, rfl, rfl, rfl⟩
  · cases (hs.trans hu).symm.trans h
    exact keepsProgramAndData_of_ends hends

/-! ### The exit flag (R13) -/

/-- Only `EXIT` ends with another exit flag. -/
theorem exitf_of_ends {i : Instr} {s u : State} (h : InstrEnds i s u) (hi : i ≠ .exit) : u.exitf = s.exitf := by
  rcases h with rfl | rfl | rfl | ⟨w, v, -, rfl⟩ | ⟨w, r, f, -, -, -, rfl⟩ | ⟨target, -, -, rfl⟩ | ⟨hexit, -⟩
  case inr.inr.inr.inr.inr.inr => exact absurd hexit hi
  all_goals rfl

theorem exec_exit (s : State) : exec .exit s = .next { s with exitf := true, status := .exited } := rfl

/-- The byte 61 at `PC` in a state that is not terminal. -/
def ExitFetched (s : State) : Prop :=
  s.status = .success ∧ s.pc.toNat < s.plen.toNat ∧ s.prog.read s.pc.toNat = 0x61

theorem exitFetched_iff_atPc {s : State} : ExitFetched s ↔ AtPc s (encode .exit) := by
  constructor
  · rintro ⟨hrun, hpc, hop⟩
    have hat := atPc_readBytes (n := 1) hrun hpc
    simp only [Memory.readBytes, hop] at hat
    exact hat
  · intro hat
    have hpc := pc_lt_of_atPc hat
    have hop := read_pc_of_atPc hat
    obtain ⟨hrun, -, -⟩ := hat
    exact ⟨hrun, hpc, hop⟩

theorem step_of_exit {s : State} (h : ExitFetched s) : step s = .next { s with exitf := true, status := .exited } :=
  step_of_atPc_encode (exitFetched_iff_atPc.1 h)

theorem exitf_of_step {s t : State} (h : step s = .next t) (hexit : ¬ ExitFetched s) : t.exitf = s.exitf := by
  rcases step_cases s with ⟨-, hs⟩ | ⟨e, -, -, hs⟩ | ⟨i, rest, u, hrun, hd, hs, hu, hends⟩
  · cases hs.symm.trans h
    rfl
  · cases hs.symm.trans h
    rfl
  · cases (hs.trans hu).symm.trans h
    refine exitf_of_ends hends ?_
    rintro rfl
    exact hexit (exitFetched_iff_atPc.2 (atPc_of_decode hrun hd))

theorem exitf_eq_true_iff_of_step {s t : State} (h : step s = .next t) :
    t.exitf = true ↔ s.exitf = true ∨ ExitFetched s := by
  by_cases hexit : ExitFetched s
  · cases (step_of_exit hexit).symm.trans h
    simp [hexit]
  · simp [exitf_of_step h hexit, hexit]

end Sys2Proof.Proofs.StepFrame

end

section
/-! What a step does not read (R11, R13, R14, R17): a relation between states that the operations of a step respect is
respected by the step, and the two such relations of the statements. -/

namespace Sys2Proof.Proofs.Noninterference

open Sys2Proof Sys2Proof.Machine Sys2Proof.Proofs.FirstFault Sys2Proof.Proofs.Control

/-! ### Relations that a step respects -/

/-- What the operations of a step ask of a relation: related states agree on what the checks and the operands are
computed from, and each operation leads from related states to related states. -/
structure Respected (R : State → State → Prop) : Prop where
  registers : ∀ {s s'}, R s s' →
    s'.params = s.params ∧ s'.plen = s.plen ∧ s'.pc = s.pc ∧ s'.sp = s.sp ∧ s'.status = s.status
  fetchWindow : ∀ {s s'}, R s s' → s'.fetchWindow = s.fetchWindow
  operands : ∀ {s s'} (w : Nat), R s s' → 2 * (w / 8) ≤ s.sp.toNat → s'.left w = s.left w ∧ s'.top w = s.top w
  pushed : ∀ {s s'} {w : Nat} (v : BitVec w), R s s' → s.sp.toNat + w / 8 ≤ s.params.stackCap.toNat →
    R (s.pushed v) (s'.pushed v)
  popped : ∀ {s s'} (w : Nat), R s s' → 2 * (w / 8) ≤ s.sp.toNat → R (s.popped w) (s'.popped w)
  setPc : ∀ {s s'} (pc : Word16), R s s' → R { s with pc := pc } { s' with pc := pc }
  setStatus : ∀ {s s'} (st : Status), R s s' → R { s with status := st } { s' with status := st }
  setExitFlag : ∀ {s s'}, R s s' → R s.setExitFlag s'.setExitFlag

/-- Two computations raise the same fault or answer related states. -/
inductive SameResult (R : State → State → Prop) : Except Fault State → Except Fault State → Prop
  | error (k : Fault) : SameResult R (.error k) (.error k)
  | ok {t t' : State} (h : R t t') : SameResult R (.ok t) (.ok t')

section
variable {R : State → State → Prop} {s s' : State}

theorem Respected.advance (hR : Respected R) (n : Nat) (h : R s s') : R (s.advance n) (s'.advance n) := by
  obtain ⟨-, -, hpc, -, -⟩ := hR.registers h
  simpa only [State.advance, hpc] using hR.setPc (s.pc + BitVec.ofNat 16 n) h

theorem Respected.push (hR : Respected R) {w : Nat} (v : BitVec w) (h : R s s') :
    SameResult R (s.push v) (s'.push v) := by
  obtain ⟨hparams, -, -, hsp, -⟩ := hR.registers h
  rcases push_cases s v with ⟨hover, hp⟩ | ⟨hfits, hp⟩
  · rw [hp, push_overflows (by rwa [hparams, hsp])]
    exact .error _
  · rw [hp, push_fits (by rwa [hparams, hsp])]
    exact .ok (hR.pushed v h hfits)

/-- The common end of a literal push and of an operator: a push, and then the advance of `PC`. -/
theorem Respected.push_advance (hR : Respected R) {w : Nat} (v : BitVec w) (n : Nat) (h : R s s') :
    SameResult R (do let t ← s.push v; return t.advance n) (do let t ← s'.push v; return t.advance n) := by
  have hpush := hR.push v h
  generalize s.push v = r, s'.push v = r' at hpush
  cases hpush with
  | error k => exact .error k
  | ok ht => exact .ok (hR.advance n ht)

theorem Respected.binary (hR : Respected R) (len : Nat) {w r : Nat} (f : BitVec w → BitVec w → BitVec r) (h : R s s') :
    SameResult R (binary len f s) (binary len f s') := by
  obtain ⟨-, -, -, hsp, -⟩ := hR.registers h
  by_cases hfew : s.sp.toNat < 2 * (w / 8)
  · rw [binary_underflows hfew, binary_underflows (by rwa [hsp])]
    exact .error _
  · have hhas : 2 * (w / 8) ≤ s.sp.toNat := Nat.le_of_not_lt hfew
    obtain ⟨hleft, htop⟩ := hR.operands w h hhas
    rw [binary_has hhas, binary_has (by rwa [hsp]), hleft, htop]
    exact hR.push_advance _ len (hR.popped w h hhas)

theorem Respected.jumpTo (hR : Respected R) (target : Word16) (h : R s s') :
    SameResult R (jumpTo target s) (jumpTo target s') := by
  obtain ⟨-, hplen, -, -, -⟩ := hR.registers h
  by_cases hout : s.plen.toNat ≤ target.toNat
  · rw [jumpTo_outOfRange hout, jumpTo_outOfRange (by rwa [hplen])]
    exact .error _
  · have hin := Nat.lt_of_not_le hout
    rw [jumpTo_inRange hin, jumpTo_inRange (by rwa [hplen])]
    exact .ok (hR.setPc target h)

/-- An instruction that ends alike on related states ends in related states. -/
theorem Respected.finish (hR : Respected R) {r r' : Except Fault State} (h : R s s') (hr : SameResult R r r') :
    ∃ t t', s.finish r = .next t ∧ s'.finish r' = .next t' ∧ R t t' := by
  cases hr with
  | error k => exact ⟨_, _, rfl, rfl, hR.setStatus (.faulted k) h⟩
  | ok ht => exact ⟨_, _, rfl, rfl, hR.setStatus .success ht⟩

theorem Respected.exec (hR : Respected R) (i : Instr) (h : R s s') :
    ∃ t t', exec i s = .next t ∧ exec i s' = .next t' ∧ R t t' := by
  cases instrKind i with
  | literalPush imm _ hexec _ =>
    rw [hexec, hexec]
    exact hR.finish h (hR.push_advance imm _ h)
  | binary _ hexec _ _ _ _ =>
    rw [hexec, hexec]
    exact hR.finish h (hR.binary _ _ h)
  | jmp target =>
    rw [exec_jmp, exec_jmp]
    exact hR.finish h (hR.jumpTo target h)
  | exit => exact ⟨_, _, rfl, rfl, hR.setStatus .exited (hR.setExitFlag h)⟩

/-- A step respects a relation that its operations respect. -/
theorem Respected.step (hR : Respected R) (h : R s s') :
    ∃ t t', step s = .next t ∧ step s' = .next t' ∧ R t t' := by
  obtain ⟨-, -, -, -, hstatus⟩ := hR.registers h
  by_cases hrun : s.status = .success
  · have hrun' : s'.status = .success := hstatus.trans hrun
    rcases fetchInstr_cases s with ⟨i, rest, hd, hi⟩ | ⟨e, hd, he⟩
    · rw [step_fetched hrun hi, step_fetched hrun' (fetchInstr_ok (hR.fetchWindow h ▸ hd))]
      exact hR.exec i h
    · rw [step_unfetched hrun he, step_unfetched hrun' (fetchInstr_error (hR.fetchWindow h ▸ hd))]
      exact ⟨_, _, rfl, rfl, hR.setStatus _ h⟩
  · rw [step_terminal hrun, step_terminal (hstatus ▸ hrun)]
    exact ⟨_, _, rfl, rfl, h⟩

end

/-! ### The exit flag is not read (R13) -/

/-- Two states that differ in the exit flag alone. -/
def SameButExitFlag (s s' : State) : Prop := ∃ b, s' = { s with exitf := b }

theorem respected_sameButExitFlag : Respected SameButExitFlag where
  registers := by
    rintro s _ ⟨b, rfl⟩
    exact ⟨rfl, rfl, rfl, rfl, rfl⟩
  fetchWindow := by
    rintro s _ ⟨b, rfl⟩
    rfl
  operands := by
    rintro s _ w ⟨b, rfl⟩ -
    exact ⟨rfl, rfl⟩
  pushed := by
    rintro s _ w v ⟨b, rfl⟩ -
    exact ⟨b, rfl⟩
  popped := by
    rintro s _ w ⟨b, rfl⟩ -
    exact ⟨b, rfl⟩
  setPc := by
    rintro s _ pc ⟨b, rfl⟩
    exact ⟨b, rfl⟩
  setStatus := by
    rintro s _ st ⟨b, rfl⟩
    exact ⟨b, rfl⟩
  setExitFlag := by
    rintro s _ ⟨b, rfl⟩
    exact ⟨true, rfl⟩

/-! ### The bytes that cannot be observed are not read (R11, R14, R17, U11) -/

/-- Bytes of the stack below `SP` are alike in states that cannot be told apart. -/
theorem readBytes_of_sameObserved {s s' : State} {a n : Nat} (h : SameObserved s s') (ha : a + n ≤ s.sp.toNat) :
    s'.stack.readBytes a n = s.stack.readBytes a n := by
  obtain ⟨-, -, -, -, -, -, -, hstack⟩ := h
  exact readBytes_congr fun k hk => hstack (a + k) (by omega)

theorem fetchWindow_of_sameObserved {s s' : State} (h : SameObserved s s') : s'.fetchWindow = s.fetchWindow := by
  obtain ⟨-, hplen, hpc, -, -, -, hprog, -⟩ := h
  rw [State.fetchWindow, State.fetchWindow, hplen, hpc]
  exact readBytes_congr fun k hk => hprog _ (by omega)

theorem sameObserved_pushed {s s' : State} {w : Nat} (v : BitVec w) (h : SameObserved s s')
    (hfits : s.sp.toNat + w / 8 ≤ s.params.stackCap.toNat) : SameObserved (s.pushed v) (s'.pushed v) := by
  have hspv := pushed_sp_toNat (v := v) hfits
  obtain ⟨hparams, hplen, hpc, hexitf, hsp, hstatus, hprog, hstack⟩ := h
  refine ⟨hparams, hplen, hpc, hexitf, by simp only [State.pushed, hsp], hstatus, hprog, fun a ha => ?_⟩
  rw [hspv] at ha
  simp only [pushed_stack, hsp, read_writeBytes]
  split
  case isTrue => rfl
  case isFalse hout =>
    rw [toBE_length] at hout
    exact hstack a (by omega)

theorem sameObserved_popped {s s' : State} (w : Nat) (h : SameObserved s s') (hhas : 2 * (w / 8) ≤ s.sp.toNat) :
    SameObserved (s.popped w) (s'.popped w) := by
  have hspw := popped_sp_toNat hhas
  obtain ⟨hparams, hplen, hpc, hexitf, hsp, hstatus, hprog, hstack⟩ := h
  refine ⟨hparams, hplen, hpc, hexitf, by simp only [State.popped, hsp], hstatus, hprog, fun a ha => ?_⟩
  exact hstack a (by omega)

theorem respected_sameObserved : Respected SameObserved where
  registers := by
    rintro s s' ⟨hparams, hplen, hpc, -, hsp, hstatus, -, -⟩
    exact ⟨hparams, hplen, hpc, hsp, hstatus⟩
  fetchWindow := fetchWindow_of_sameObserved
  operands := by
    intro s s' w h hhas
    have hsp : s'.sp = s.sp := by
      obtain ⟨-, -, -, -, hsp, -⟩ := h
      exact hsp
    constructor
    · rw [State.left, State.left, hsp, readBytes_of_sameObserved h (by omega)]
    · rw [State.top, State.top, State.topBytes, State.topBytes, hsp, readBytes_of_sameObserved h (by omega)]
  pushed := sameObserved_pushed
  popped := sameObserved_popped
  setPc := by
    rintro s s' pc ⟨hparams, hplen, -, hrest⟩
    exact ⟨hparams, hplen, rfl, hrest⟩
  setStatus := by
    rintro s s' st ⟨hparams, hplen, hpc, hexitf, hsp, -, hrest⟩
    exact ⟨hparams, hplen, hpc, hexitf, hsp, rfl, hrest⟩
  setExitFlag := by
    rintro s s' ⟨hparams, hplen, hpc, -, hrest⟩
    exact ⟨hparams, hplen, hpc, rfl, hrest⟩

end Sys2Proof.Proofs.Noninterference

open Sys2Proof Sys2Proof.Machine Sys2Proof.Proofs.Noninterference

/-- Settles O19: every operation of a step reads and writes below `PLEN` and `SP` alone, so it respects the relation.
-/
theorem stepIgnoresUnobservableBytes : Obligations.StepIgnoresUnobservableBytes := by
  intro s s' t h hstep
  obtain ⟨u, u', hu, hu', hrel⟩ := respected_sameObserved.step h
  cases hu.symm.trans hstep
  exact ⟨u', hu', hrel⟩

end

section
/-! The next `PC` (R122, R123) and runs that stay in one state (R120, R121, R136). -/

namespace Sys2Proof.Proofs.NextPc

open Sys2Proof Sys2Proof.Machine Sys2Proof.Proofs.RoundTrip Sys2Proof.Proofs.Dispatch Sys2Proof.Proofs.FirstFault
  Sys2Proof.Proofs.Control Sys2Proof.Proofs.ProgramBuilder

/-! ### Only an instruction that runs ends with Success -/

theorem runs_of_step_success {s t : State} (hrun : s.status = .success) (hstep : step s = .next t)
    (ht : t.status = .success) : ∃ i, AtPc s (encode i) ∧ exec i s = .next t ∧ InstrEnds i s t := by
  cases stepBegins hrun with
  | pastEnd _ hs | unknownOpcode _ _ hs | cutShort _ _ _ _ hs | refusedType _ _ _ _ hs =>
    cases hs.symm.trans hstep
    cases ht
  | runs i hat hs =>
    obtain ⟨u, hu, hends⟩ := exec_cases i s
    cases (hs.trans hu).symm.trans hstep
    exact ⟨i, hat, hu, hends⟩

/-- Where an instruction other than a jump ends with Success, `PC` has advanced by its length. -/
theorem pc_of_ends {i : Instr} {s u : State} (h : InstrEnds i s u) (hu : u.status = .success)
    (hjmp : ∀ target, i ≠ .jmp target) : u.pc = s.pc + BitVec.ofNat 16 (encode i).length := by
  rcases h with rfl | rfl | rfl | ⟨w, v, -, rfl⟩ | ⟨w, r, f, -, -, -, rfl⟩ | ⟨target, hi, -, -⟩ | ⟨-, rfl⟩
  case inl | inr.inl | inr.inr.inl | inr.inr.inr.inr.inr.inr => cases hu
  case inr.inr.inr.inr.inr.inl => exact absurd hi (hjmp target)
  all_goals rfl

/-- The advance over an instruction that ends at or below `PLEN` does not wrap. -/
theorem toNat_pc_add {s : State} {bs : List Byte} (h : AtPc s bs) :
    (s.pc + BitVec.ofNat 16 bs.length).toNat = s.pc.toNat + bs.length := by
  obtain ⟨-, hplen, -⟩ := h
  have hmax := s.plen.isLt
  rw [BitVec.toNat_add, BitVec.toNat_ofNat]
  omega

/-- The jump and its target's bytes are what opcode byte 0x60 and two more bytes are. -/
theorem target_of_jmp_atPc {s : State} {target : Word16} (hat : AtPc s (encode (.jmp target))) :
    target.toNat = (s.prog.read (s.pc.toNat + 1)).toNat * 256 + (s.prog.read (s.pc.toNat + 2)).toNat := by
  obtain ⟨hi, lo, hbytes, htarget⟩ := encode_jmp target
  rw [hbytes] at hat
  obtain ⟨-, -, hread⟩ := hat
  rw [htarget, hread 1 (by simp), hread 2 (by simp)]
  rfl

/-- Opcode byte 0x60 is that of the jumps and of no other instruction. -/
theorem opcode_eq_jmp_iff {i : Instr} {op : Byte} {payload : List Byte} (h : encode i = op :: payload) :
    op = 0x60 ↔ ∃ target, i = .jmp target := by
  constructor
  · rintro rfl
    obtain ⟨op', payload', h', -, hi⟩ := encode_eq_cons i
    cases h.symm.trans h'
    cases hi
    exact ⟨_, rfl⟩
  · rintro ⟨target, rfl⟩
    cases h
    rfl

theorem opcode_eq_jmp_iff_of_atPc {s : State} {i : Instr} (hat : AtPc s (encode i)) :
    s.prog.read s.pc.toNat = 0x60 ↔ ∃ target, i = .jmp target := by
  obtain ⟨op, payload, hbytes, -, -⟩ := encode_eq_cons i
  rw [hbytes] at hat
  rw [read_pc_of_atPc hat, opcode_eq_jmp_iff hbytes]

theorem instrLength_of_atPc {s : State} {i : Instr} (hat : AtPc s (encode i)) :
    instrLength (s.prog.read s.pc.toNat) = some (encode i).length := by
  obtain ⟨op, payload, hbytes, hlen, -⟩ := encode_eq_cons i
  rw [hbytes] at hat ⊢
  rw [read_pc_of_atPc hat, hlen, List.length_cons, Nat.add_comm]

/-! ### The rows of the summary (R122) -/

section
variable {s t : State}

/-- After a jump that does not fault, `PC` is the number of the two bytes after the opcode byte. -/
theorem pc_of_jump (hrun : s.status = .success) (hstep : step s = .next t) (hop : s.prog.read s.pc.toNat = 0x60)
    (ht : t.status = .success) :
    t.pc.toNat = (s.prog.read (s.pc.toNat + 1)).toNat * 256 + (s.prog.read (s.pc.toNat + 2)).toNat ∧
      t.pc.toNat < s.plen.toNat := by
  obtain ⟨i, hat, hexec, -⟩ := runs_of_step_success hrun hstep ht
  obtain ⟨target, rfl⟩ := (opcode_eq_jmp_iff_of_atPc hat).1 hop
  by_cases hout : s.plen.toNat ≤ target.toNat
  · cases (exec_jmp_outOfRange hout).symm.trans hexec
    cases ht
  · have hin := Nat.lt_of_not_le hout
    cases (exec_jmp_inRange hin).symm.trans hexec
    exact ⟨target_of_jmp_atPc hat, hin⟩

/-- After any other instruction that does not fault, `PC` has advanced by the length of its opcode and is at most
`PLEN`. -/
theorem pc_of_advance (hrun : s.status = .success) (hstep : step s = .next t) (hop : s.prog.read s.pc.toNat ≠ 0x60)
    (ht : t.status = .success) :
    ∃ len, instrLength (s.prog.read s.pc.toNat) = some len ∧ t.pc.toNat = s.pc.toNat + len ∧
      t.pc.toNat ≤ s.plen.toNat := by
  obtain ⟨i, hat, -, hends⟩ := runs_of_step_success hrun hstep ht
  have hjmp : ∀ target, i ≠ .jmp target := fun target hi => hop ((opcode_eq_jmp_iff_of_atPc hat).2 ⟨target, hi⟩)
  have hpc : t.pc.toNat = s.pc.toNat + (encode i).length := by rw [pc_of_ends hends ht hjmp, toNat_pc_add hat]
  obtain ⟨-, hplen, -⟩ := id hat
  exact ⟨_, instrLength_of_atPc hat, hpc, hpc ▸ hplen⟩

end

/-! ### Commands, and steps that lead to the state they began in -/

theorem stepped_of_step {s t : State} (h : step s = .next t) : s.stepped = t :=
  Host.Outcome.next.inj ((step_stepped s).symm.trans h)

theorem runSteps_of_fixed {s : State} (h : step s = .next s) (n : Nat) : runSteps n s = .next s := by
  induction n with
  | zero => rfl
  | succ n ih => rw [runSteps_succ n h, ih]

/-- All that an append can do (R142). -/
theorem append_cases (s : State) (bs : List Byte) :
    (s.append bs).2 = s ∨ s.plen.toNat + bs.length ≤ s.params.progCap.toNat ∧ (s.append bs).2 = appended s bs := by
  by_cases hfull : s.params.progCap.toNat < s.plen.toNat + bs.length
  · exact .inl (by rw [append_full hfull])
  · have hfits := Nat.le_of_not_lt hfull
    exact .inr ⟨hfits, by rw [append_fits hfits]⟩

theorem append_exitf (s : State) (bs : List Byte) : (s.append bs).2.exitf = s.exitf := by
  obtain heq | ⟨-, heq⟩ := append_cases s bs
  · rw [heq]
  · rw [heq, appended]

/-- A jump to its own offset (R120, R176). -/
theorem step_of_jump_to_itself {s : State} {hi lo : Byte} (hat : AtPc s [0x60, hi, lo])
    (htarget : s.pc.toNat = hi.toNat * 256 + lo.toNat) : step s = .next s := by
  have hin : s.pc.toNat < s.plen.toNat := pc_lt_of_atPc hat
  rw [step_of_jmp_atPc hat, ← htarget, BitVec.ofNat_toNat, BitVec.setWidth_eq, exec_jmp_inRange hin]
  obtain ⟨hrun, -, -⟩ := hat
  rw [← hrun]

end Sys2Proof.Proofs.NextPc

open Sys2Proof Sys2Proof.Machine Sys2Proof.Proofs.Dispatch Sys2Proof.Proofs.StepFrame Sys2Proof.Proofs.Noninterference
  Sys2Proof.Proofs.NextPc Sys2Proof.Proofs.HostQueries

/-- Settles O12: a step of a terminal state holds, so any number of them do. -/
theorem terminalStateHoldsForEver : Obligations.TerminalStateHoldsForEver := by
  intro s n hterminal
  have hstep := step_terminal hterminal
  exact ⟨runSteps_of_fixed hstep n, by simp only [Command.run, stepped_of_step hstep]⟩

/-- Settles O13: the rows of R122 are the fault, the exit, the jump and the advance. -/
theorem nextPcIsThatOfTheSummary : Obligations.NextPcIsThatOfTheSummary := by
  refine ⟨fun s t hrun hstep => ⟨fun k hk => ?fault, fun hpc hop => ?exit, pc_of_jump hrun hstep,
    pc_of_advance hrun hstep⟩, fun s => rfl⟩
  case fault => rw [eq_takeFault_of_step hstep hk, takeFault_pc]
  case exit => cases (step_of_exit ⟨hrun, hpc, hop⟩).symm.trans hstep; rfl

/-- Settles O17: every end of an instruction, and a fault of the fetch, keeps the spaces themselves. -/
theorem stepLeavesProgramAndDataMemoryAlone : Obligations.StepLeavesProgramAndDataMemoryAlone := by
  intro s t hstep
  obtain ⟨hparams, hplen, hprog, hmem⟩ := keepsProgramAndData_of_step hstep
  exact ⟨hparams, hplen, fun a => by rw [hprog], fun a => by rw [hmem]⟩

/-- Settles O18: only the exit ends with another flag, and the step respects the relation of states that differ in the
flag alone. -/
theorem exitFlagIsSetOnlyByExitAndClearedOnlyByErase : Obligations.ExitFlagIsSetOnlyByExitAndClearedOnlyByErase := by
  refine ⟨fun s t => exitf_eq_true_iff_of_step, fun _ => rfl, rfl, fun c s herase hstep hclean => ?_,
    fun s t b hstep => ?_⟩
  · cases c
    case erase => exact absurd rfl herase
    case step => exact absurd rfl hstep
    case cleanRun n => exact absurd rfl (hclean n)
    case clear | getLine | finished | printOpcodeAt | opcodeName | statusName | read => rfl
    all_goals exact append_exitf s _
  · obtain ⟨u, u', hu, hu', e, rfl⟩ := respected_sameButExitFlag.step (s := s) ⟨b, rfl⟩
    cases hu.symm.trans hstep
    exact ⟨e, hu'⟩

/-- Settles O29: the flag that `EXIT` sets makes `finished` true, and the status it sets holds the machine. -/
theorem exitFollowsItsRule : Obligations.ExitFollowsItsRule := by
  refine ⟨exec_exit, fun s hat => ⟨_, step_of_atPc_encode (i := .exit) hat, rfl, ?_, step_terminal nofun⟩⟩
  exact (finished_eq_true_iff _).2 (.inr rfl)

/-- Settles O30: the jump to its own offset leads to the state it began in. -/
theorem jumpToItselfLoopsForEver : Obligations.JumpToItselfLoopsForEver :=
  fun _ _ _ n hat htarget => runSteps_of_fixed (step_of_jump_to_itself hat htarget) n

end

section
/-! The invariant (R2, R10, R12, R14, R155): what each operation asks to keep it, and the one induction over the
host's commands. -/

namespace Sys2Proof.Proofs.InvariantKept

open Sys2Proof Sys2Proof.Machine Sys2Proof.Proofs.Dispatch Sys2Proof.Proofs.NextPc Sys2Proof.Proofs.ProgramBuilder
  Sys2Proof.Proofs.EncodedLength

/-! ### The invariant by name -/

/-- The conjuncts of `State.wf`. -/
structure Invariant (s : State) : Prop where
  params : s.params.wf = true
  plen_le : s.plen.toNat ≤ s.params.progCap.toNat
  pc_le : s.pc.toNat ≤ s.plen.toNat
  sp_le : s.sp.toNat ≤ s.params.stackCap.toNat
  prog : s.prog.wf s.params.progCap.toNat = true
  stack : s.stack.wf s.params.stackCap.toNat = true
  mem : s.mem.wf s.params.memSize.toNat = true
  status : s.status ≠ .faulted .memoryOutOfRange

theorem wf_iff_invariant (s : State) : s.wf = true ↔ Invariant s := by
  simp only [State.wf, Bool.and_eq_true, decide_eq_true_eq]
  constructor
  · rintro ⟨⟨⟨⟨⟨⟨⟨h1, h2⟩, h3⟩, h4⟩, h5⟩, h6⟩, h7⟩, h8⟩
    exact ⟨h1, h2, h3, h4, h5, h6, h7, h8⟩
  · rintro ⟨h1, h2, h3, h4, h5, h6, h7, h8⟩
    exact ⟨⟨⟨⟨⟨⟨⟨h1, h2⟩, h3⟩, h4⟩, h5⟩, h6⟩, h7⟩, h8⟩

/-! ### The operations of a step -/

section
variable {s : State}

theorem Invariant.setStatus (h : Invariant s) {st : Status} (hst : st ≠ .faulted .memoryOutOfRange) :
    Invariant { s with status := st } := { h with status := hst }

theorem Invariant.setPc (h : Invariant s) {pc : Word16} (hpc : pc.toNat ≤ s.plen.toNat) :
    Invariant { s with pc := pc } := { h with pc_le := hpc }

theorem Invariant.popped (h : Invariant s) {w : Nat} (hhas : 2 * (w / 8) ≤ s.sp.toNat) : Invariant (s.popped w) :=
  { h with sp_le := by rw [popped_sp_toNat hhas, popped_params]; exact (Nat.sub_le _ _).trans h.sp_le }

theorem Invariant.pushed (h : Invariant s) {w : Nat} {v : BitVec w}
    (hfits : s.sp.toNat + w / 8 ≤ s.params.stackCap.toNat) : Invariant (s.pushed v) :=
  { h with
    sp_le := by rwa [pushed_sp_toNat hfits, pushed_params]
    stack := wf_writeBytes h.stack (by rwa [toBE_length]) }

/-- An advance over bytes at `PC`, which end at or below `PLEN`, on the program they stand in. -/
theorem Invariant.advance {t : State} (ht : Invariant t) {bs : List Byte} (hat : AtPc s bs) (hpc : t.pc = s.pc)
    (hplen : t.plen = s.plen) : Invariant (t.advance bs.length) := by
  refine ht.setPc ?_
  rw [hpc, hplen, toNat_pc_add hat]
  obtain ⟨-, hle, -⟩ := hat
  exact hle

/-! ### An instruction and a step -/

theorem Invariant.ends {i : Instr} {u : State} (h : Invariant s) (hat : AtPc s (encode i)) (hends : InstrEnds i s u) :
    Invariant u := by
  rcases hends with rfl | rfl | rfl | ⟨w, v, hfits, rfl⟩ | ⟨w, r, f, hhas, hfits, -, rfl⟩ |
    ⟨target, -, hin, rfl⟩ | ⟨-, rfl⟩
  case inl | inr.inl | inr.inr.inl => exact h.setStatus (by decide)
  · exact ((h.pushed hfits).advance hat rfl rfl).setStatus nofun
  · have hfits' : (s.popped w).sp.toNat + r / 8 ≤ (s.popped w).params.stackCap.toNat := by
      rwa [popped_sp_toNat hhas, popped_params]
    exact (((h.popped hhas).pushed hfits').advance hat rfl rfl).setStatus nofun
  · exact (h.setPc (Nat.le_of_lt hin)).setStatus nofun
  · exact { h with status := nofun }

theorem faultOf_ne_memoryOutOfRange (e : DecodeError) : Status.faulted (faultOf e) ≠ .faulted .memoryOutOfRange := by
  cases e <;> decide

theorem Invariant.step {t : State} (h : Invariant s) (hstep : step s = .next t) : Invariant t := by
  rcases step_cases s with ⟨-, hs⟩ | ⟨e, -, -, hs⟩ | ⟨i, rest, u, hrun, hd, hs, hu, hends⟩
  · cases hs.symm.trans hstep
    exact h
  · cases hs.symm.trans hstep
    exact h.setStatus (faultOf_ne_memoryOutOfRange e)
  · cases (hs.trans hu).symm.trans hstep
    exact h.ends (atPc_of_decode hrun hd) hends

/-! ### The host's commands -/

theorem Invariant.append (h : Invariant s) (bs : List Byte) : Invariant (s.append bs).2 := by
  obtain heq | ⟨hfits, heq⟩ := append_cases s bs
  · rwa [heq]
  · rw [heq]
    have hplen := appended_plen_toNat hfits
    exact { h with
      plen_le := hplen ▸ hfits
      pc_le := hplen ▸ h.pc_le.trans (Nat.le_add_right _ _)
      prog := wf_writeBytes h.prog hfits }

theorem Invariant.erase (h : Invariant s) : Invariant s.erase :=
  { h with plen_le := Nat.zero_le _, pc_le := Nat.le_refl _, prog := wf_zero _ }

theorem Invariant.clear (h : Invariant s) : Invariant s.clear :=
  { h with sp_le := Nat.zero_le _, stack := wf_zero _, mem := wf_zero _, status := nofun }

theorem invariant_resetWith {p : Params} (h : p.wf = true) : Invariant (State.resetWith p) :=
  ⟨h, Nat.zero_le _, Nat.le_refl _, Nat.zero_le _, wf_zero _, wf_zero _, wf_zero _, nofun⟩

end

/-- What `cleanRun` leaves holds whatever every step keeps. -/
theorem cleanRun_keeps {P : State → Prop} (hstep : ∀ s, P s → P s.stepped) (fuel : Nat) {s : State} (h : P s) :
    P (s.cleanRun fuel).2 := by
  induction fuel generalizing s with
  | zero => exact h
  | succ fuel ih =>
    rw [State.cleanRun]
    split
    · exact ih (hstep s h)
    · exact hstep s h

/-- Every command keeps what a step, an append, `erase` and `clear` keep. -/
theorem run_keeps {P : State → Prop} (hstep : ∀ s, P s → P s.stepped) (happend : ∀ s bs, P s → P (s.append bs).2)
    (herase : ∀ s, P s → P s.erase) (hclear : ∀ s, P s → P s.clear) (c : Command) {s : State} (h : P s) :
    P (c.run s).2 := by
  cases c
  case erase => exact herase s h
  case clear => exact hclear s h
  case step => exact hstep s h
  case cleanRun fuel => exact cleanRun_keeps hstep fuel h
  case getLine | finished | printOpcodeAt | opcodeName | statusName | read => exact h
  all_goals exact happend s _ h

/-! ### `MemoryOutOfRange` (R155) -/

theorem status_of_step {s t : State} (h : s.status ≠ .faulted .memoryOutOfRange) (hstep : step s = .next t) :
    t.status ≠ .faulted .memoryOutOfRange := by
  rcases step_cases s with ⟨-, hs⟩ | ⟨e, -, -, hs⟩ | ⟨i, rest, u, -, -, hs, hu, hends⟩
  · cases hs.symm.trans hstep
    exact h
  · cases hs.symm.trans hstep
    exact faultOf_ne_memoryOutOfRange e
  · cases (hs.trans hu).symm.trans hstep
    intro hfault
    obtain ⟨-, hk⟩ := fault_of_ends hends hfault
    exact absurd hk (by decide)

theorem append_status (s : State) (bs : List Byte) : (s.append bs).2.status = s.status := by
  obtain heq | ⟨-, heq⟩ := append_cases s bs
  · rw [heq]
  · rw [heq, appended]

end Sys2Proof.Proofs.InvariantKept

open Sys2Proof Sys2Proof.Machine Sys2Proof.Proofs.InvariantKept

/-- Settles O14: an advance stays at or below `PLEN` because the instruction's bytes end there, and a push that fits
stays within the capacity. -/
theorem stepKeepsTheInvariant : Obligations.StepKeepsTheInvariant := by
  intro s t h hstep
  rw [wf_iff_invariant] at h ⊢
  exact h.step hstep

/-- Settles O15: every space is empty and every register 0. -/
theorem resetMeetsTheInvariant : Obligations.ResetMeetsTheInvariant :=
  ⟨(wf_iff_invariant _).2 (invariant_resetWith rfl), fun _ h => (wf_iff_invariant _).2 (invariant_resetWith h)⟩

/-- Settles O16: a step, an append, `erase` and `clear` keep the invariant, and so does any number of steps. -/
theorem commandsKeepTheInvariant : Obligations.CommandsKeepTheInvariant := by
  intro c s h
  rw [wf_iff_invariant] at h ⊢
  exact run_keeps (fun s hs => hs.step (step_stepped s)) (fun _ bs hs => hs.append bs) (fun _ hs => hs.erase)
    (fun _ hs => hs.clear) c h

/-- Settles O20: no check raises the fault, and no command but the step sets a fault. -/
theorem memoryOutOfRangeIsNeverRaised : Obligations.MemoryOutOfRangeIsNeverRaised := by
  refine ⟨nofun, fun s t => status_of_step, fun c s h => ?_⟩
  exact run_keeps (P := fun s => s.status ≠ .faulted .memoryOutOfRange) (fun s hs => status_of_step hs (step_stepped s))
    (fun s bs hs => append_status s bs ▸ hs) (fun _ hs => hs) (fun _ _ => nofun) c h

/-- Settles O42: the eight elements are those that `erase` or `clear` resets. -/
theorem resetIsEraseAndClearTogether : Obligations.ResetIsEraseAndClearTogether :=
  ⟨⟨rfl, rfl, rfl, rfl, rfl, read_zero, read_zero, read_zero⟩, fun _ => ⟨rfl, rfl⟩⟩

end

section
/-! Runs under the host's hand (R137, R142): `cleanRun` as steps, and an instruction appended at the end of the
program. -/

namespace Sys2Proof.Proofs.HostRuns

open Sys2Proof Sys2Proof.Machine Sys2Proof.Proofs.ProgramBuilder

/-! ### `cleanRun` (R137) -/

theorem cleanRun_zero (s : State) : State.cleanRun 0 s = (none, s) := rfl

theorem cleanRun_goesOn {s : State} (fuel : Nat) (h : s.stepped.status = .success) :
    State.cleanRun (fuel + 1) s = State.cleanRun fuel s.stepped := if_pos h

theorem cleanRun_stops {s : State} (fuel : Nat) (h : s.stepped.status ≠ .success) :
    State.cleanRun (fuel + 1) s = (some s.stepped.status, s.stepped) := if_neg h

/-- Every number of steps from 1 and below `n` leads to a state with status Success. -/
def SuccessBefore (s : State) (n : Nat) : Prop :=
  ∀ m, 1 ≤ m → m < n → ∃ u, runSteps m s = .next u ∧ u.status = .success

theorem successBefore_one (s : State) : SuccessBefore s 1 :=
  fun _ hpos hlt => absurd hlt (Nat.not_lt_of_le hpos)

theorem successBefore_succ {s : State} {n : Nat} (hs : s.stepped.status = .success) (h : SuccessBefore s.stepped n) :
    SuccessBefore s (n + 1) := by
  intro m hpos hlt
  obtain ⟨k, rfl⟩ := Nat.exists_eq_add_of_le' hpos
  rw [runSteps_succ k (step_stepped s)]
  cases k with
  | zero => exact ⟨_, rfl, hs⟩
  | succ k => exact h (k + 1) (Nat.succ_pos k) (Nat.lt_of_succ_lt_succ hlt)

theorem cleanRun_eq_some {fuel : Nat} {s t : State} {st : Status} (h : State.cleanRun fuel s = (some st, t)) :
    st ≠ .success ∧ t.status = st ∧ ∃ n, 1 ≤ n ∧ n ≤ fuel ∧ runSteps n s = .next t ∧ SuccessBefore s n := by
  induction fuel generalizing s with
  | zero => cases (cleanRun_zero s).symm.trans h
  | succ fuel ih =>
    by_cases hs : s.stepped.status = .success
    · obtain ⟨hst, ht, n, hpos, hle, hrun, hbefore⟩ := ih ((cleanRun_goesOn fuel hs).symm.trans h)
      exact ⟨hst, ht, n + 1, Nat.succ_pos n, Nat.succ_le_succ hle, (runSteps_succ n (step_stepped s)).trans hrun,
        successBefore_succ hs hbefore⟩
    · cases (cleanRun_stops fuel hs).symm.trans h
      exact ⟨hs, rfl, 1, Nat.le_refl 1, Nat.succ_pos fuel, runSteps_succ 0 (step_stepped s), successBefore_one s⟩

theorem cleanRun_eq_none {fuel : Nat} {s t : State} (h : State.cleanRun fuel s = (none, t)) :
    runSteps fuel s = .next t ∧ SuccessBefore s (fuel + 1) := by
  induction fuel generalizing s with
  | zero =>
    cases (cleanRun_zero s).symm.trans h
    exact ⟨rfl, successBefore_one _⟩
  | succ fuel ih =>
    by_cases hs : s.stepped.status = .success
    · obtain ⟨hrun, hbefore⟩ := ih ((cleanRun_goesOn fuel hs).symm.trans h)
      exact ⟨(runSteps_succ fuel (step_stepped s)).trans hrun, successBefore_succ hs hbefore⟩
    · cases (cleanRun_stops fuel hs).symm.trans h

/-! ### An instruction appended where `PC` stands (R39, R142) -/

theorem atPc_appended {s : State} {bs : List Byte} (hrun : s.status = .success) (hpc : s.pc = s.plen)
    (hfits : s.plen.toNat + bs.length ≤ s.params.progCap.toNat) : AtPc (appended s bs) bs := by
  refine ⟨hrun, ?_, fun k hk => ?_⟩
  · rw [appended_plen_toNat hfits, ← hpc]
    rfl
  · rw [← read_writeBytes_add s.prog s.plen.toNat k bs hk, ← hpc]
    simp only [appended, hpc]

end Sys2Proof.Proofs.HostRuns

open Sys2Proof Sys2Proof.Machine Sys2Proof.Proofs.ProgramBuilder Sys2Proof.Proofs.Dispatch Sys2Proof.Proofs.HostRuns

/-- Settles O47: by induction on the fuel, one step before a `cleanRun` that has one less. -/
theorem cleanRunIsStepsUntilNotSuccess : Obligations.CleanRunIsStepsUntilNotSuccess := by
  refine fun fuel s => ⟨fun st t => cleanRun_eq_some, fun t h => ?_⟩
  obtain ⟨hrun, hbefore⟩ := cleanRun_eq_none h
  exact ⟨hrun, fun m hpos hle => hbefore m hpos (Nat.lt_succ_of_le hle)⟩

/-- Settles O48: an append that fits puts the encoder's bytes at `PLEN`, where `PC` stands. -/
theorem appendedInstructionIsTheNextToRun : Obligations.AppendedInstructionIsTheNextToRun :=
  fun s i hrun hpc hfits =>
    ⟨appended s (encode i), append_fits hfits, step_of_atPc_encode (atPc_appended hrun hpc hfits)⟩

end

section
/-! Bytes under values (R32, R34): the top of the stack one byte and two bytes at a time, and the data memory. -/

namespace Sys2Proof.Proofs.BytesOfValues

open Sys2Proof Sys2Proof.Machine Sys2Proof.Proofs.OperandStack Sys2Proof.Proofs.Control
  Sys2Proof.Proofs.ProgramBuilder

/-! ### The top bytes of the stack -/

theorem top_byte (s : State) : s.top 8 = s.stack.read (s.sp.toNat - 1) := by
  simp [State.top, State.topBytes, Memory.readBytes, fieldBE, fromBE_cons]

/-- The top two bytes as one value, the deeper one more significant (R14, R31). -/
theorem top_pair {s : State} (h : 2 ≤ s.sp.toNat) :
    s.top 16 = BitVec.ofNat 16
      ((s.stack.read (s.sp.toNat - 2)).toNat * 256 + (s.stack.read (s.sp.toNat - 1)).toNat) := by
  have hnext : s.sp.toNat - 2 + 1 = s.sp.toNat - 1 := by omega
  rw [← hnext, ← fieldBE_pair]
  rfl

/-- A pop of one byte returns the byte below `SP` and lowers `SP` by one. -/
theorem pop_byte {s : State} {n : Nat} (h : s.sp.toNat = n + 1) :
    ∃ t, s.pop 8 = .ok (s.stack.read n, t) ∧ t.stack = s.stack ∧ t.sp.toNat = n := by
  have hhas : 8 / 8 ≤ s.sp.toNat := by omega
  have hbyte : s.top 8 = s.stack.read n := by rw [top_byte, h, Nat.add_sub_cancel]
  refine ⟨{ s with sp := s.sp - BitVec.ofNat 16 (8 / 8) }, by rw [pop_has hhas, hbyte], rfl, ?_⟩
  rw [sp_sub_toNat hhas, h]
  rfl

/-! ### `MemRead` and `MemWrite` (R34) -/

theorem memRead_eq_error_iff {s : State} {a n : Nat} :
    s.memRead a n = .error .memoryOutOfRange ↔ s.params.memSize.toNat < a + n := by
  simp [State.memRead]

theorem memWrite_eq_error_iff {s : State} {a n v : Nat} :
    s.memWrite a n v = .error .memoryOutOfRange ↔ s.params.memSize.toNat < a + n := by
  simp [State.memWrite]

theorem memWrite_inRange {s : State} {a n : Nat} (v : Nat) (h : a + n ≤ s.params.memSize.toNat) :
    s.memWrite a n v = .ok { s with mem := s.mem.writeBytes a (toBE n v) } := if_neg (Nat.not_lt_of_le h)

theorem memRead_inRange {s : State} {a n : Nat} (h : a + n ≤ s.params.memSize.toNat) :
    s.memRead a n = .ok (fromBE (s.mem.readBytes a n)) := if_neg (Nat.not_lt_of_le h)

/-- The bytes of a value read back are its low bytes' number. -/
theorem fromBE_readBytes_writeBytes (m : Memory) (a n v : Nat) :
    fromBE ((m.writeBytes a (toBE n v)).readBytes a n) = v % 256 ^ n := by
  have hbytes := readBytes_eq (m := m.writeBytes a (toBE n v)) (a := a) (bs := toBE n v)
    fun k hk => read_writeBytes_add m a k _ hk
  rw [toBE_length] at hbytes
  rw [hbytes, fromBE_toBE]

end Sys2Proof.Proofs.BytesOfValues

open Sys2Proof Sys2Proof.Machine Sys2Proof.Proofs.OperandStack Sys2Proof.Proofs.BytesOfValues

/-- Settles O38: a pop reads the bytes below `SP`, whatever the width of the push that wrote them. -/
theorem mixedWidthAccessSeesTheBytes : Obligations.MixedWidthAccessSeesTheBytes := by
  refine ⟨fun s t v hpush => ?_, fun s t u x y hx hy => ?_⟩
  · obtain ⟨hfits, rfl⟩ := push_eq_ok hpush
    have hbytes := holds_writeBytes s.stack s.sp.toNat 2 v.toNat
    have hlow : (s.pushed v).stack.read (s.sp.toNat + 1) = BitVec.ofNat 8 v.toNat := by
      simpa [byteOf] using hbytes 1 (by decide)
    have hhigh : (s.pushed v).stack.read s.sp.toNat = BitVec.ofNat 8 (v.toNat / 256) := by
      simpa [byteOf] using hbytes 0 (by decide)
    obtain ⟨u, hu, hustack, husp⟩ := pop_byte (pushed_sp_toNat (v := v) hfits)
    obtain ⟨u', hu', -, husp'⟩ := pop_byte husp
    rw [hustack] at hu'
    exact ⟨u, u', hlow ▸ hu, hhigh ▸ hu', BitVec.eq_of_toNat_eq husp'⟩
  · obtain ⟨hfitsx, rfl⟩ := push_eq_ok hx
    obtain ⟨hfitsy, rfl⟩ := push_eq_ok hy
    have hspx : (s.pushed x).sp.toNat = s.sp.toNat + 1 := pushed_sp_toNat hfitsx
    have hspy : ((s.pushed x).pushed y).sp.toNat = s.sp.toNat + 2 := by
      rw [pushed_sp_toNat hfitsy, hspx]
    have hdeep : ((s.pushed x).pushed y).stack.read s.sp.toNat = x := by
      rw [pushed_stack, outside_writeBytes _ _ 1 _ _ (.inl (by omega))]
      simpa [byteOf] using holds_writeBytes s.stack s.sp.toNat 1 x.toNat 0 (by decide)
    have htop : ((s.pushed x).pushed y).stack.read (s.sp.toNat + 1) = y := by
      rw [← hspx]
      simpa [byteOf] using holds_writeBytes (s.pushed x).stack (s.pushed x).sp.toNat 1 y.toNat 0 (by decide)
    have hpair : ((s.pushed x).pushed y).top 16 = BitVec.ofNat 16 (x.toNat * 256 + y.toNat) := by
      rw [top_pair (by omega), hspy]
      simp only [Nat.add_sub_cancel, Nat.add_succ_sub_one, hdeep, htop]
    have hhas : 16 / 8 ≤ ((s.pushed x).pushed y).sp.toNat := by omega
    refine ⟨_, by rw [pop_has hhas, hpair], BitVec.eq_of_toNat_eq ?_⟩
    rw [sp_sub_toNat hhas, hspy]
    rfl

/-- Settles O39: `MemWrite` writes the value's big-endian bytes and no other, and `MemRead` reads those bytes. -/
theorem dataMemoryReadsWhatWasWritten : Obligations.DataMemoryReadsWhatWasWritten := by
  intro s a n v _
  refine ⟨memRead_eq_error_iff, memWrite_eq_error_iff, fun hin => ⟨_, memWrite_inRange v hin, ?_, ?_, rfl, ?_⟩⟩
  · exact holds_writeBytes s.mem a n v
  · exact outside_writeBytes s.mem a n v
  · have hbytes := fromBE_readBytes_writeBytes s.mem a n v
    rw [memRead_inRange (s := { s with mem := s.mem.writeBytes a (toBE n v) }) hin, hbytes]

end

section
/-! Rounding (R86, D20): the nearest member of a strictly rising sequence, the sequence of a format's magnitudes, and
`roundMag` as the nearest of them. Distances are compared in whole numbers, the exact value and the magnitudes both
scaled by `2 ^ scale`. -/

namespace Sys2Proof.Proofs.Rounding

open Sys2Proof Sys2Proof.Machine

/-! ### The nearest member of a sequence -/

/-- `z` is no nearer to `x` than `r` in the sequence `u`, and where it is as near, it is `r` or `r` is even. -/
def Nearest (u : Nat → Int) (x : Int) (r z : Nat) : Prop :=
  |x - u r| ≤ |x - u z| ∧ (|x - u r| = |x - u z| → z = r ∨ r % 2 = 0)

theorem nearest_of_lt {u : Nat → Int} {x : Int} {r z : Nat} (h : |x - u r| < |x - u z|) : Nearest u x r z :=
  ⟨h.le, fun heq => absurd heq h.ne⟩

/-- A member nearest among those from `lo` to `hi`, which enclose `x`, is the nearest of all. -/
theorem nearest_of_enclosed {u : Nat → Int} (hu : StrictMono u) {x : Int} {lo hi r : Nat} (hle : lo ≤ hi)
    (hlo : lo = 0 ∨ u lo ≤ x) (hhi : x ≤ u hi) (h : ∀ z, lo ≤ z → z ≤ hi → Nearest u x r z) (z : Nat) :
    Nearest u x r z := by
  by_cases hbelow : z < lo
  · have hx : u lo ≤ x := hlo.resolve_left (Nat.ne_of_gt (Nat.zero_lt_of_lt hbelow))
    have huz := hu hbelow
    refine nearest_of_lt ((h lo le_rfl hle).1.trans_lt ?_)
    rw [abs_of_nonneg (by omega), abs_of_nonneg (by omega)]
    omega
  by_cases habove : hi < z
  · have huz := hu habove
    refine nearest_of_lt ((h hi hle le_rfl).1.trans_lt ?_)
    rw [abs_of_nonpos (by omega), abs_of_nonpos (by omega)]
    omega
  · exact h z (Nat.le_of_not_lt hbelow) (Nat.le_of_not_lt habove)

/-- The nearest member up to `b` is the nearest of all, or `b` where that is beyond it. -/
theorem nearest_min {u : Nat → Int} (hu : StrictMono u) {x : Int} {r b z : Nat} (h : ∀ z, Nearest u x r z)
    (hz : z ≤ b) : Nearest u x (min r b) z := by
  by_cases hr : r ≤ b
  · rw [min_eq_left hr]
    exact h z
  · have hbr := Nat.lt_of_not_le hr
    rw [min_eq_right hbr.le]
    have hub := hu hbr
    have huz := hu.monotone hz
    have hx : u b < x := by
      by_contra hx
      have hnear := (h b).1
      rw [abs_of_nonpos (by omega), abs_of_nonpos (by omega)] at hnear
      omega
    rw [Nearest, abs_of_nonneg (by omega), abs_of_nonneg (by omega)]
    exact ⟨by omega, fun heq => .inl (hu.injective (by omega))⟩

/-! ### Division rounded to nearest, ties to even -/

theorem divNearestEven_bounds (num den : Nat) :
    num / den ≤ divNearestEven num den ∧ divNearestEven num den ≤ num / den + 1 := by
  simp only [divNearestEven]
  split_ifs <;> omega

/-- The rounded quotient's multiple of `den` is the nearest to `num`. -/
theorem nearest_divNearestEven (num : Nat) {den : Nat} (hden : 0 < den) (k : Nat) :
    Nearest (fun k => (k * den : Nat)) num (divNearestEven num den) k := by
  have hdiv := Nat.div_add_mod' num den
  have hmod := Nat.mod_lt num hden
  have hsucc : (num / den + 1) * den = num / den * den + den := Nat.succ_mul _ _
  have hk : k = num / den ∨ k = num / den + 1 ∨ k * den + den ≤ num / den * den ∨
      num / den * den + 2 * den ≤ k * den := by
    rcases Nat.lt_trichotomy k (num / den) with h | h | h
    · have := Nat.mul_le_mul_right den (Nat.succ_le_of_lt h)
      rw [Nat.succ_mul] at this
      omega
    · exact .inl h
    · by_cases h1 : k = num / den + 1
      · exact .inr (.inl h1)
      · have := Nat.mul_le_mul_right den (show num / den + 2 ≤ k by omega)
        rw [Nat.add_mul] at this
        omega
  -- Each way to round against each place of `k`: the distances are the remainder, its complement, and more than `den`.
  simp only [Nearest, divNearestEven, Int.abs_eq_natAbs]
  split_ifs <;> rcases hk with rfl | rfl | hk | hk <;> try rw [hsucc]
  all_goals omega

/-! ### The magnitudes of a format, in units -/

/-- Within a binade, its upper end included, a unit of the pattern is `2 ^ q` units of value; the lowest binade holds
the subnormals too. -/
theorem unitsOfMag_binade (F : FloatFormat) {q k : Nat} (hk : k ≤ 2 * 2 ^ F.fracBits) (h : 2 ^ F.fracBits ≤ k ∨ q = 0) :
    unitsOfMag F (q * 2 ^ F.fracBits + k) = k * 2 ^ q := by
  have hpos : 0 < 2 ^ F.fracBits := Nat.two_pow_pos _
  simp only [unitsOfMag]
  rw [Nat.mul_comm q, Nat.mul_add_div hpos, Nat.mul_add_mod]
  generalize 2 ^ F.fracBits = M at *
  rcases Nat.lt_trichotomy k M with hlow | rfl | hhigh
  · obtain rfl : q = 0 := h.resolve_left (Nat.not_le_of_lt hlow)
    simp [Nat.div_eq_of_lt hlow, Nat.mod_eq_of_lt hlow]
  · simp [Nat.div_self hpos]
  · obtain rfl | hlt := hk.eq_or_lt
    · simp [hpos, pow_succ]
      ring
    · obtain ⟨f, rfl⟩ := Nat.exists_eq_add_of_le hhigh.le
      have hf : f < M := by omega
      simp [hpos, Nat.div_eq_of_lt hf, Nat.mod_eq_of_lt hf]

/-- Every magnitude pattern lies in a binade, below its upper end. -/
theorem exists_binade (F : FloatFormat) (m : Nat) :
    ∃ q k, m = q * 2 ^ F.fracBits + k ∧ k < 2 * 2 ^ F.fracBits ∧ (2 ^ F.fracBits ≤ k ∨ q = 0) := by
  have hpos : 0 < 2 ^ F.fracBits := Nat.two_pow_pos _
  have hdiv := Nat.div_add_mod' m (2 ^ F.fracBits)
  have hmod := Nat.mod_lt m hpos
  cases he : m / 2 ^ F.fracBits with
  | zero =>
    rw [he, Nat.zero_mul] at hdiv
    exact ⟨0, m, by omega, by omega, .inr rfl⟩
  | succ q =>
    rw [he, Nat.succ_mul] at hdiv
    exact ⟨q, 2 ^ F.fracBits + m % 2 ^ F.fracBits, by omega, by omega, .inl (by omega)⟩

theorem strictMono_unitsOfMag (F : FloatFormat) : StrictMono (unitsOfMag F) := by
  refine strictMono_nat_of_lt_succ fun m => ?_
  obtain ⟨q, k, rfl, hk, hq⟩ := exists_binade F m
  have hq' : 2 ^ F.fracBits ≤ k + 1 ∨ q = 0 := hq.imp_left Nat.le_succ_of_le
  rw [Nat.add_assoc, unitsOfMag_binade F hk.le hq, unitsOfMag_binade F hk hq']
  exact Nat.mul_lt_mul_of_pos_right (Nat.lt_succ_self k) (Nat.two_pow_pos q)

/-- The scaled magnitudes, the sequence in which `roundMag` rounds. -/
def scaledUnits (F : FloatFormat) (scale z : Nat) : Int := (unitsOfMag F z * 2 ^ scale : Nat)

theorem strictMono_scaledUnits (F : FloatFormat) (scale : Nat) : StrictMono (scaledUnits F scale) := by
  intro m n hmn
  have hlt := strictMono_unitsOfMag F hmn
  exact Int.ofNat_lt.2 (Nat.mul_lt_mul_of_pos_right hlt (Nat.two_pow_pos scale))

theorem scaledUnits_binade (F : FloatFormat) (scale : Nat) {q k : Nat} (hk : k ≤ 2 * 2 ^ F.fracBits)
    (h : 2 ^ F.fracBits ≤ k ∨ q = 0) :
    scaledUnits F scale (q * 2 ^ F.fracBits + k) = (k * 2 ^ (scale + q) : Nat) := by
  rw [scaledUnits, unitsOfMag_binade F hk h, pow_add]
  ring_nf

/-! ### `roundMag` -/

/-- The exponent shift at which the quotient of `num` keeps `fracBits + 1` bits, 0 in the lowest binade. -/
def shiftOf (F : FloatFormat) (num scale : Nat) : Nat := Nat.log2 num + 1 - (scale + F.fracBits + 1)

theorem roundMag_eq (F : FloatFormat) (num scale : Nat) :
    roundMag F num scale = min (shiftOf F num scale * 2 ^ F.fracBits
      + divNearestEven num (2 ^ (scale + shiftOf F num scale))) (infMag F) := rfl

theorem lt_of_shiftOf (F : FloatFormat) (num scale : Nat) :
    num < 2 * 2 ^ F.fracBits * 2 ^ (scale + shiftOf F num scale) :=
  calc num
    _ < 2 ^ (num.log2 + 1) := Nat.lt_log2_self
    _ ≤ 2 ^ (1 + F.fracBits + (scale + shiftOf F num scale)) :=
      Nat.pow_le_pow_right Nat.two_pos (by rw [shiftOf]; omega)
    _ = 2 * 2 ^ F.fracBits * 2 ^ (scale + shiftOf F num scale) := by rw [pow_add, pow_add, pow_one]

theorem le_of_shiftOf (F : FloatFormat) (num scale : Nat) (h : shiftOf F num scale ≠ 0) :
    2 ^ F.fracBits * 2 ^ (scale + shiftOf F num scale) ≤ num := by
  have hlog : num.log2 = F.fracBits + (scale + shiftOf F num scale) := by
    rw [shiftOf] at h ⊢
    omega
  have hnum : num ≠ 0 := by
    rintro rfl
    rw [shiftOf, Nat.log2_zero] at h
    omega
  rw [← pow_add, ← hlog]
  exact Nat.log2_self_le hnum

/-- In a binade, the nearest whole number of its steps gives the nearest magnitude; the two have the same parity. -/
theorem nearest_binade {F : FloatFormat} (hF : 1 ≤ F.fracBits) {num scale q d k : Nat}
    (hd : d ≤ 2 * 2 ^ F.fracBits) (hd' : 2 ^ F.fracBits ≤ d ∨ q = 0)
    (hk : k ≤ 2 * 2 ^ F.fracBits) (hk' : 2 ^ F.fracBits ≤ k ∨ q = 0)
    (h : Nearest (fun k => (k * 2 ^ (scale + q) : Nat)) num d k) :
    Nearest (scaledUnits F scale) num (q * 2 ^ F.fracBits + d) (q * 2 ^ F.fracBits + k) := by
  obtain ⟨hle, htie⟩ := h
  have heven : q * 2 ^ F.fracBits % 2 = 0 := by
    obtain ⟨p, hp⟩ := Nat.exists_eq_add_of_le' hF
    rw [hp, pow_succ, ← Nat.mul_assoc, Nat.mul_mod_left]
  rw [Nearest, scaledUnits_binade F scale hd hd', scaledUnits_binade F scale hk hk']
  exact ⟨hle, fun heq => (htie heq).imp (fun hkd => by rw [hkd]) (fun hd2 => by omega)⟩

/-- `roundMag` is the nearest magnitude up to that of infinity, a tie going to the even one. -/
theorem nearest_roundMag {F : FloatFormat} (hF : 1 ≤ F.fracBits) (num scale : Nat) {z : Nat} (hz : z ≤ infMag F) :
    Nearest (scaledUnits F scale) num (roundMag F num scale) z := by
  have hlt := lt_of_shiftOf F num scale
  have hge := le_of_shiftOf F num scale
  rw [roundMag_eq]
  generalize shiftOf F num scale = q at *
  refine nearest_min (strictMono_scaledUnits F scale) (fun z => ?_) hz
  have hden : 0 < 2 ^ (scale + q) := Nat.two_pow_pos _
  have hdiv : num / 2 ^ (scale + q) < 2 * 2 ^ F.fracBits := (Nat.div_lt_iff_lt_mul hden).2 hlt
  obtain ⟨hd1, hd2⟩ := divNearestEven_bounds num (2 ^ (scale + q))
  have hd : divNearestEven num (2 ^ (scale + q)) ≤ 2 * 2 ^ F.fracBits := by omega
  have htop : (num : Int) ≤ scaledUnits F scale (q * 2 ^ F.fracBits + 2 * 2 ^ F.fracBits) := by
    rw [scaledUnits_binade F scale le_rfl (.inl (by omega))]
    exact Int.ofNat_le.2 hlt.le
  by_cases hq : q = 0
  · refine nearest_of_enclosed (strictMono_scaledUnits F scale) (Nat.zero_le _) (.inl rfl) htop (fun z _ hz => ?_) z
    obtain ⟨k, rfl⟩ := Nat.exists_eq_add_of_le (show q * 2 ^ F.fracBits ≤ z by simp [hq])
    exact nearest_binade hF hd (.inr hq) (by omega) (.inr hq) (nearest_divNearestEven num hden k)
  · have hlow : 2 ^ F.fracBits ≤ num / 2 ^ (scale + q) := (Nat.le_div_iff_mul_le hden).2 (hge hq)
    have hbottom : scaledUnits F scale (q * 2 ^ F.fracBits + 2 ^ F.fracBits) ≤ num := by
      rw [scaledUnits_binade F scale (by omega) (.inl le_rfl)]
      exact Int.ofNat_le.2 (hge hq)
    refine nearest_of_enclosed (strictMono_scaledUnits F scale) (by omega) (.inr hbottom) htop (fun z hz1 hz2 => ?_) z
    obtain ⟨k, rfl⟩ := Nat.exists_eq_add_of_le (show q * 2 ^ F.fracBits ≤ z by omega)
    exact nearest_binade hF hd (.inl (by omega)) (by omega) (.inl (by omega)) (nearest_divNearestEven num hden k)

end Sys2Proof.Proofs.Rounding
end

section
/-! The bit patterns of a float format (R86, G1, G3): sign and magnitude, the value of a pattern as a number of units,
and a rounded magnitude with a sign as the correctly rounded result. -/

namespace Sys2Proof.Proofs.FloatPattern

open Sys2Proof Sys2Proof.Machine Sys2Proof.Proofs.Rounding

/-- The patterns of `F` are the words of `w` bits, and neither field is empty. -/
structure Layout (F : FloatFormat) (w : Nat) : Prop where
  width : F.expBits + F.fracBits + 1 = w
  expBits_pos : 1 ≤ F.expBits
  fracBits_pos : 1 ≤ F.fracBits

theorem layout_binary32 : Layout Config.binary32 32 := ⟨rfl, by decide, by decide⟩

theorem layout_binary64 : Layout Config.binary64 64 := ⟨rfl, by decide, by decide⟩

/-! ### Sign and magnitude -/

theorem signWeight_pos (F : FloatFormat) : 0 < signWeight F := Nat.two_pow_pos _

/-- Above the magnitude of infinity there is room for the NaNs' fractions. -/
theorem infMag_add (F : FloatFormat) : infMag F + 2 ^ F.fracBits = signWeight F := by
  rw [infMag, signWeight, pow_add, ← Nat.succ_mul, Nat.succ_eq_add_one, Nat.sub_add_cancel Nat.one_le_two_pow]

theorem infMag_lt (F : FloatFormat) : infMag F < signWeight F := by
  have hadd := infMag_add F
  have hpos : 0 < 2 ^ F.fracBits := Nat.two_pow_pos _
  omega

theorem magOf_lt (F : FloatFormat) (p : Nat) : magOf F p < signWeight F := Nat.mod_lt p (signWeight_pos F)

section
variable {F : FloatFormat} {m : Nat}

theorem magOf_withSign (neg : Bool) (h : m < signWeight F) : magOf F (withSign F neg m) = m := by
  cases neg
  · exact Nat.mod_eq_of_lt h
  · simp [withSign, magOf, Nat.mod_eq_of_lt h]

theorem isNeg_withSign (neg : Bool) (h : m < signWeight F) : isNeg F (withSign F neg m) = neg := by
  cases neg
  · simpa [withSign, isNeg] using h
  · simp [withSign, isNeg]

theorem withSign_lt (neg : Bool) (h : m < signWeight F) : withSign F neg m < 2 * signWeight F := by
  cases neg
  all_goals simp only [withSign, if_true, Bool.false_eq_true, if_false]; omega

end

@[simp] theorem magOf_flipSign (F : FloatFormat) (p : Nat) : magOf F (flipSign F p) = magOf F p :=
  magOf_withSign _ (magOf_lt F p)

@[simp] theorem isNeg_flipSign (F : FloatFormat) (p : Nat) : isNeg F (flipSign F p) = !isNeg F p :=
  isNeg_withSign _ (magOf_lt F p)

theorem flipSign_lt (F : FloatFormat) (p : Nat) : flipSign F p < 2 * signWeight F := withSign_lt _ (magOf_lt F p)

@[simp] theorem isInf_flipSign (F : FloatFormat) (p : Nat) : isInf F (flipSign F p) = isInf F p := by
  rw [isInf, magOf_flipSign, isInf]

/-- A pattern is its sign and its magnitude. -/
theorem withSign_isNeg_magOf {F : FloatFormat} {p : Nat} (h : p < 2 * signWeight F) :
    withSign F (isNeg F p) (magOf F p) = p := by
  by_cases hneg : signWeight F ≤ p
  · have hmod : p % signWeight F = p - signWeight F := by
      rw [Nat.mod_eq_sub_mod hneg, Nat.mod_eq_of_lt (by omega)]
    simp only [withSign, isNeg, decide_eq_true hneg, if_true, magOf, hmod]
    omega
  · simp only [withSign, isNeg, decide_eq_false hneg, Bool.false_eq_true, if_false, magOf]
    exact Nat.mod_eq_of_lt (Nat.lt_of_not_le hneg)

theorem Layout.two_pow {F : FloatFormat} {w : Nat} (hF : Layout F w) : 2 ^ w = 2 * signWeight F := by
  rw [← hF.width, pow_succ, mul_comm, signWeight]

/-- A pattern of the format is its own number as a word. -/
theorem toNat_ofNat_of_lt {F : FloatFormat} {w p : Nat} (hF : Layout F w) (h : p < 2 * signWeight F) :
    (BitVec.ofNat w p).toNat = p := by
  rw [BitVec.toNat_ofNat, hF.two_pow, Nat.mod_eq_of_lt h]

/-! ### Values -/

/-- The value of one unit, the least positive subnormal. -/
def unitValue (F : FloatFormat) : ℚ := 2 ^ (1 - ((2 ^ (F.expBits - 1) - 1 : ℤ)) - F.fracBits)

theorem unitValue_pos (F : FloatFormat) : 0 < unitValue F := by
  unfold unitValue
  positivity

theorem floatValue_eq (F : FloatFormat) (m : Nat) : floatValue F m = unitsOfMag F m * unitValue F := by
  have htwo : (2 : ℚ) ≠ 0 := two_ne_zero
  simp only [floatValue, unitsOfMag, unitValue]
  generalize (2 ^ (F.expBits - 1) - 1 : ℤ) = bias
  cases m / 2 ^ F.fracBits with
  | zero =>
    rw [if_pos rfl, if_pos rfl, zpow_sub₀ htwo _ (F.fracBits : ℤ), zpow_natCast]
    ring
  | succ e =>
    have hexp : ((e + 1 : ℕ) : ℤ) - bias = e + (1 - bias) := by push_cast; ring
    rw [if_neg e.succ_ne_zero, if_neg e.succ_ne_zero, Nat.add_sub_cancel, hexp, zpow_add₀ htwo, zpow_natCast,
      zpow_sub₀ htwo _ (F.fracBits : ℤ), zpow_natCast]
    push_cast
    field_simp

theorem signedValue_eq (F : FloatFormat) (p : Nat) : signedValue F p = unitsOf F p * unitValue F := by
  rw [signedValue, unitsOf, floatValue_eq]
  split <;> push_cast <;> ring

theorem unitsOf_flipSign (F : FloatFormat) (p : Nat) : unitsOf F (flipSign F p) = -unitsOf F p := by
  cases hneg : isNeg F p <;> simp [unitsOf, hneg]

/-- The distance of the exact value to a magnitude's, in the whole numbers in which `roundMag` rounds. -/
theorem distance_eq {F : FloatFormat} {x : ℚ} {num scale : Nat} (hx : |x| = num / 2 ^ scale * unitValue F) (z : Nat) :
    |(|x| - floatValue F z)| = (|(num : ℤ) - scaledUnits F scale z| : ℤ) * (unitValue F / 2 ^ scale) := by
  have hpos : 0 < unitValue F / 2 ^ scale := div_pos (unitValue_pos F) (by positivity)
  have heq : |x| - floatValue F z = ((num : ℤ) - scaledUnits F scale z : ℤ) * (unitValue F / 2 ^ scale) := by
    rw [hx, floatValue_eq, scaledUnits]
    push_cast
    field_simp
  rw [heq, abs_mul, abs_of_pos hpos, Int.cast_abs]

/-- A rounded magnitude with the sign of the exact value is the correctly rounded result. -/
theorem correctlyRounded_withSign {F : FloatFormat} (hF : 1 ≤ F.fracBits) {x : ℚ} {num scale : Nat} {neg : Bool}
    (hx : |x| = num / 2 ^ scale * unitValue F) (hpos : 0 < x → neg = false) (hneg : x < 0 → neg = true) :
    CorrectlyRounded F x (withSign F neg (roundMag F num scale)) := by
  have hle : roundMag F num scale ≤ infMag F := min_le_right _ _
  have hlt := hle.trans_lt (infMag_lt F)
  have hunit : 0 < unitValue F / 2 ^ scale := div_pos (unitValue_pos F) (by positivity)
  rw [CorrectlyRounded, magOf_withSign neg hlt, isNeg_withSign neg hlt]
  refine ⟨hle, hpos, hneg, fun z hz => ?_⟩
  obtain ⟨hnear, htie⟩ := nearest_roundMag hF num scale hz
  rw [distance_eq hx, distance_eq hx]
  refine ⟨mul_le_mul_of_nonneg_right (Int.cast_le.2 hnear) hunit.le, fun heq => htie ?_⟩
  exact Int.cast_injective (mul_right_cancel₀ hunit.ne' heq)

end Sys2Proof.Proofs.FloatPattern
end

section
/-! The float operators on finite operands (R86 point 1, D20): the exact sum, difference and product, rounded once. -/

namespace Sys2Proof.Proofs.FloatRounding

open Sys2Proof Sys2Proof.Machine Sys2Proof.Proofs.Rounding Sys2Proof.Proofs.FloatPattern

/-! ### An operator on words -/

section
variable {F : FloatFormat} {w : Nat} {op : FloatOp} {f : Nat → Nat → Option Nat} {a b : BitVec w}

theorem floatOp_of_some {r : Nat} (ha : isNaN F a.toNat = false) (hb : isNaN F b.toNat = false)
    (hr : f a.toNat b.toNat = some r) : floatOp F op w f a b = BitVec.ofNat w r := by
  simp only [floatOp, ha, hb, Bool.or_self, Bool.false_eq_true, if_false, hr]

theorem toNat_floatOp_of_some (hF : Layout F w) {r : Nat} (ha : isNaN F a.toNat = false) (hb : isNaN F b.toNat = false)
    (hr : f a.toNat b.toNat = some r) (hlt : r < 2 * signWeight F) : (floatOp F op w f a b).toNat = r := by
  rw [floatOp_of_some ha hb hr, toNat_ofNat_of_lt hF hlt]

end

/-! ### Finite patterns -/

section
variable {F : FloatFormat} {a b : Nat}

theorem isNaN_of_finite (h : IsFinite F a) : isNaN F a = false := decide_eq_false (Nat.not_lt_of_lt h)

theorem isInf_of_finite (h : IsFinite F a) : isInf F a = false := decide_eq_false (Nat.ne_of_lt h)

theorem finite_flipSign (h : IsFinite F a) : IsFinite F (flipSign F a) := by
  rwa [IsFinite, magOf_flipSign]

theorem signedValue_flipSign (F : FloatFormat) (a : Nat) : signedValue F (flipSign F a) = -signedValue F a := by
  rw [signedValue_eq, signedValue_eq, unitsOf_flipSign, Int.cast_neg, neg_mul]

/-! ### The sum -/

/-- The sign of a rounded sum: that of the exact sum, and of an exact zero the one of the rule for the sign of zero.
-/
def sumNeg (F : FloatFormat) (a b : Nat) : Bool :=
  if unitsOf F a + unitsOf F b = 0 then isNeg F a && isNeg F b else decide (unitsOf F a + unitsOf F b < 0)

theorem roundMag_zero (F : FloatFormat) (scale : Nat) : roundMag F 0 scale = 0 := by
  have hshift : shiftOf F 0 scale = 0 := by
    rw [shiftOf, Nat.log2_zero]
    omega
  simp [roundMag_eq, hshift, divNearestEven]

theorem roundMag_lt (F : FloatFormat) (num scale : Nat) : roundMag F num scale < signWeight F :=
  (min_le_right _ _).trans_lt (infMag_lt F)

theorem addPatterns_of_finite (ha : IsFinite F a) (hb : IsFinite F b) :
    addPatterns F a b = some (withSign F (sumNeg F a b) (roundMag F (unitsOf F a + unitsOf F b).natAbs 0)) := by
  simp only [addPatterns, isInf_of_finite ha, isInf_of_finite hb, Bool.false_eq_true, if_false, sumNeg]
  split
  case isTrue hzero => rw [hzero, Int.natAbs_zero, roundMag_zero]
  case isFalse => rfl

/-- The exact sum as a number of units. -/
theorem signedValue_add (F : FloatFormat) (a b : Nat) :
    signedValue F a + signedValue F b = (unitsOf F a + unitsOf F b : ℤ) * unitValue F := by
  rw [signedValue_eq, signedValue_eq]
  push_cast
  ring

/-- `r` is the pattern of the exact value `x`, correctly rounded, with the sign `negZero` where `x` is zero. -/
def RoundsTo (F : FloatFormat) (x : ℚ) (negZero : Prop) (r : Nat) : Prop :=
  CorrectlyRounded F x r ∧ (x = 0 → (isNeg F r = true ↔ negZero))

theorem addPatterns_roundsTo (hF : 1 ≤ F.fracBits) (ha : IsFinite F a) (hb : IsFinite F b) :
    ∃ r, addPatterns F a b = some r ∧ r < 2 * signWeight F ∧
      RoundsTo F (signedValue F a + signedValue F b) (isNeg F a = true ∧ isNeg F b = true) r := by
  refine ⟨_, addPatterns_of_finite ha hb, withSign_lt _ (roundMag_lt F _ _), ?_, fun hzero => ?_⟩
  · rw [signedValue_add]
    have hunit := unitValue_pos F
    refine correctlyRounded_withSign hF ?_ (fun hpos => ?_) (fun hneg => ?_)
    · rw [abs_mul, abs_of_pos hunit, pow_zero, div_one, Nat.cast_natAbs, Int.cast_abs]
    · have hx : 0 < unitsOf F a + unitsOf F b := Int.cast_pos.1 (pos_of_mul_pos_left hpos hunit.le)
      rw [sumNeg, if_neg hx.ne']
      exact decide_eq_false hx.not_gt
    · have hx : unitsOf F a + unitsOf F b < 0 := Int.cast_lt_zero.1 (neg_of_mul_neg_left hneg hunit.le)
      rw [sumNeg, if_neg hx.ne]
      exact decide_eq_true hx
  · rw [signedValue_add, mul_eq_zero, or_iff_left (unitValue_pos F).ne', Int.cast_eq_zero] at hzero
    rw [isNeg_withSign _ (roundMag_lt F _ _), sumNeg, if_pos hzero, Bool.and_eq_true]

/-! ### The product -/

/-- A number of squared units is in units again at the scale of a product. -/
theorem unitValue_eq_inv (hF : 1 ≤ F.fracBits) : unitValue F = 1 / 2 ^ productScale F := by
  have hscale : (productScale F : ℤ) = 2 ^ (F.expBits - 1) - 1 + F.fracBits - 1 := by
    have hpos : 1 ≤ 2 ^ (F.expBits - 1) := Nat.one_le_two_pow
    rw [productScale, Nat.cast_sub (by omega), Nat.cast_add, Nat.cast_sub hpos]
    push_cast
    rfl
  rw [one_div, ← zpow_natCast, ← zpow_neg, hscale, unitValue]
  congr 1
  ring

theorem floatValue_nonneg (F : FloatFormat) (m : Nat) : 0 ≤ floatValue F m := by
  rw [floatValue_eq]
  exact mul_nonneg (Nat.cast_nonneg _) (unitValue_pos F).le

theorem signedValue_nonpos (h : isNeg F a = true) : signedValue F a ≤ 0 := by
  rw [signedValue, if_pos h]
  exact neg_nonpos.2 (floatValue_nonneg F _)

theorem signedValue_nonneg (h : isNeg F a = false) : 0 ≤ signedValue F a := by
  rw [signedValue, h]
  exact floatValue_nonneg F _

theorem abs_signedValue (F : FloatFormat) (a : Nat) : |signedValue F a| = unitsOfMag F (magOf F a) * unitValue F := by
  rw [← floatValue_eq, signedValue]
  split
  · rw [abs_neg, abs_of_nonneg (floatValue_nonneg F _)]
  · rw [abs_of_nonneg (floatValue_nonneg F _)]

/-- The sign of a product that is not zero is negative where the operands' signs differ. -/
theorem sign_of_product (F : FloatFormat) (a b : Nat) :
    (0 < signedValue F a * signedValue F b → (isNeg F a != isNeg F b) = false) ∧
      (signedValue F a * signedValue F b < 0 → (isNeg F a != isNeg F b) = true) := by
  cases ha : isNeg F a <;> cases hb : isNeg F b
  · exact ⟨fun _ => rfl, fun h => absurd h (mul_nonneg (signedValue_nonneg ha) (signedValue_nonneg hb)).not_gt⟩
  · exact ⟨fun h => absurd h (mul_nonpos_of_nonneg_of_nonpos (signedValue_nonneg ha) (signedValue_nonpos hb)).not_gt,
      fun _ => rfl⟩
  · exact ⟨fun h => absurd h (mul_nonpos_of_nonpos_of_nonneg (signedValue_nonpos ha) (signedValue_nonneg hb)).not_gt,
      fun _ => rfl⟩
  · exact ⟨fun _ => rfl, fun h => absurd h
      (mul_nonneg_of_nonpos_of_nonpos (signedValue_nonpos ha) (signedValue_nonpos hb)).not_gt⟩

theorem mulPatterns_of_finite (ha : IsFinite F a) (hb : IsFinite F b) :
    mulPatterns F a b = some (withSign F (isNeg F a != isNeg F b)
      (roundMag F (unitsOfMag F (magOf F a) * unitsOfMag F (magOf F b)) (productScale F))) := by
  simp only [mulPatterns, isInf_of_finite ha, isInf_of_finite hb, Bool.or_self, Bool.false_eq_true, if_false]

theorem mulPatterns_roundsTo (hF : 1 ≤ F.fracBits) (ha : IsFinite F a) (hb : IsFinite F b) :
    ∃ r, mulPatterns F a b = some r ∧ r < 2 * signWeight F ∧
      RoundsTo F (signedValue F a * signedValue F b) (isNeg F a ≠ isNeg F b) r := by
  obtain ⟨hpos, hneg⟩ := sign_of_product F a b
  refine ⟨_, mulPatterns_of_finite ha hb, withSign_lt _ (roundMag_lt F _ _),
    correctlyRounded_withSign hF ?_ hpos hneg, fun _ => ?_⟩
  · rw [abs_mul, abs_signedValue, abs_signedValue, Nat.cast_mul]
    calc _ * unitValue F * (_ * unitValue F)
      _ = unitsOfMag F (magOf F a) * unitsOfMag F (magOf F b) * unitValue F * unitValue F := by ring
      _ = _ := by
        congr 1
        rw [unitValue_eq_inv hF, mul_one_div]
  · rw [isNeg_withSign _ (roundMag_lt F _ _), bne_iff_ne]

end

/-! ### The operators on words -/

section
variable {F : FloatFormat} {w : Nat} {op : FloatOp} {f : Nat → Nat → Option Nat} {a b : BitVec w}

/-- An operator whose rule on patterns answers a rounded result answers its pattern. -/
theorem floatOp_roundsTo (hF : Layout F w) (ha : IsFinite F a.toNat) (hb : IsFinite F b.toNat) {x : ℚ} {negZero : Prop}
    (h : ∃ r, f a.toNat b.toNat = some r ∧ r < 2 * signWeight F ∧ RoundsTo F x negZero r) :
    RoundsTo F x negZero (floatOp F op w f a b).toNat := by
  obtain ⟨r, hr, hlt, hrounds⟩ := h
  rwa [toNat_floatOp_of_some hF (isNaN_of_finite ha) (isNaN_of_finite hb) hr hlt]

theorem fadd_roundsTo (hF : Layout F w) (ha : IsFinite F a.toNat) (hb : IsFinite F b.toNat) :
    RoundsTo F (signedValue F a.toNat + signedValue F b.toNat)
      (isNeg F a.toNat = true ∧ isNeg F b.toNat = true) (fadd F a b).toNat :=
  floatOp_roundsTo hF ha hb (addPatterns_roundsTo hF.fracBits_pos ha hb)

theorem fsub_roundsTo (hF : Layout F w) (ha : IsFinite F a.toNat) (hb : IsFinite F b.toNat) :
    RoundsTo F (signedValue F a.toNat - signedValue F b.toNat)
      (isNeg F a.toNat = true ∧ isNeg F b.toNat = false) (fsub F a b).toNat := by
  have h := addPatterns_roundsTo hF.fracBits_pos ha (finite_flipSign hb)
  rw [signedValue_flipSign, ← sub_eq_add_neg, isNeg_flipSign, Bool.not_eq_true'] at h
  exact floatOp_roundsTo hF ha hb h

theorem fmul_roundsTo (hF : Layout F w) (ha : IsFinite F a.toNat) (hb : IsFinite F b.toNat) :
    RoundsTo F (signedValue F a.toNat * signedValue F b.toNat)
      (isNeg F a.toNat ≠ isNeg F b.toNat) (fmul F a b).toNat :=
  floatOp_roundsTo hF ha hb (mulPatterns_roundsTo hF.fracBits_pos ha hb)

end

end Sys2Proof.Proofs.FloatRounding

open Sys2Proof Sys2Proof.Proofs.FloatPattern Sys2Proof.Proofs.FloatRounding

/-- Settles O31: the exact sum is a whole number of units, which `roundMag` rounds to the nearest magnitude. -/
theorem floatSumIsCorrectlyRounded : Obligations.FloatSumIsCorrectlyRounded :=
  ⟨fun _ _ => fadd_roundsTo layout_binary32, fun _ _ => fadd_roundsTo layout_binary64⟩

/-- Settles O32: as O31, the difference being the sum with the right operand's sign inverted. -/
theorem floatDifferenceIsCorrectlyRounded : Obligations.FloatDifferenceIsCorrectlyRounded :=
  ⟨fun _ _ => fsub_roundsTo layout_binary32, fun _ _ => fsub_roundsTo layout_binary64⟩

/-- Settles O33: the exact product is a whole number of squared units, which `roundMag` rounds at the product's scale.
-/
theorem floatProductIsCorrectlyRounded : Obligations.FloatProductIsCorrectlyRounded :=
  ⟨fun _ _ => fmul_roundsTo layout_binary32, fun _ _ => fmul_roundsTo layout_binary64⟩

end

section
/-! The float operators with a NaN or an infinity among the operands (R86 points 1 and 2). -/

namespace Sys2Proof.Proofs.FloatSpecials

open Sys2Proof Sys2Proof.Machine Sys2Proof.Proofs.FloatPattern Sys2Proof.Proofs.FloatRounding

/-! ### Kinds of patterns -/

section
variable {F : FloatFormat} {a : Nat}

theorem infMag_pos {w : Nat} (hF : Layout F w) : 0 < infMag F :=
  Nat.mul_pos (Nat.sub_pos_of_lt (Nat.one_lt_two_pow (Nat.ne_of_gt hF.expBits_pos))) (Nat.two_pow_pos _)

theorem magOf_of_isInf (h : isInf F a = true) : magOf F a = infMag F := of_decide_eq_true h

theorem isNaN_of_isInf (h : isInf F a = true) : isNaN F a = false :=
  decide_eq_false (by rw [magOf_of_isInf h]; exact Nat.lt_irrefl _)

theorem isZero_of_isInf {w : Nat} (hF : Layout F w) (h : isInf F a = true) : isZero F a = false :=
  decide_eq_false (by rw [magOf_of_isInf h]; exact (infMag_pos hF).ne')

/-- Whatever the free bits are, the pattern made from them is a NaN of the format. -/
theorem isNaN_nanFrom {w : Nat} (hF : Layout F w) (free : Nat) :
    nanFrom F free < 2 * signWeight F ∧ isNaN F (nanFrom F free) = true := by
  have hadd := infMag_add F
  have hmod : free % 2 ^ F.fracBits < 2 ^ F.fracBits := Nat.mod_lt _ (Nat.two_pow_pos _)
  have hquiet : 2 ^ (F.fracBits - 1) < 2 ^ F.fracBits :=
    Nat.pow_lt_pow_right Nat.one_lt_two (Nat.sub_lt hF.fracBits_pos Nat.one_pos)
  have hquiet_pos : 0 < 2 ^ (F.fracBits - 1) := Nat.two_pow_pos _
  simp only [nanFrom]
  generalize hf : (if free % 2 ^ F.fracBits = 0 then 2 ^ (F.fracBits - 1) else free % 2 ^ F.fracBits) = f
  have hlt : infMag F + f < signWeight F := by
    split at hf <;> omega
  refine ⟨withSign_lt _ hlt, ?_⟩
  rw [isNaN, magOf_withSign _ hlt]
  exact decide_eq_true (by split at hf <;> omega)

end

/-! ### NaN results (R86 point 2) -/

section
variable {F : FloatFormat} {w : Nat} {op : FloatOp} {f : Nat → Nat → Option Nat} {a b : BitVec w}

theorem isNaN_word (hF : Layout F w) (free : Nat) : isNaN F (BitVec.ofNat w (nanFrom F free)).toNat = true := by
  obtain ⟨hlt, hnan⟩ := isNaN_nanFrom hF free
  rwa [toNat_ofNat_of_lt hF hlt]

theorem isNaN_floatOp_of_nan (hF : Layout F w) (h : isNaN F a.toNat = true ∨ isNaN F b.toNat = true) :
    isNaN F (floatOp F op w f a b).toNat = true := by
  simp only [floatOp, if_pos (Bool.or_eq_true_iff.2 h)]
  exact isNaN_word hF _

theorem isNaN_floatOp_of_none (hF : Layout F w) (h : f a.toNat b.toNat = none) :
    isNaN F (floatOp F op w f a b).toNat = true := by
  simp only [floatOp, h, ite_self]
  exact isNaN_word hF _

end

/-! ### The operators on patterns with an infinity (R86 point 1) -/

section
variable {F : FloatFormat} {a b : Nat}

theorem addPatterns_unlike (ha : isInf F a = true) (hb : isInf F b = true) (h : isNeg F a ≠ isNeg F b) :
    addPatterns F a b = none := by
  simp [addPatterns, ha, hb, h]

/-- The pattern `r` is the infinity with the sign `neg`. -/
structure IsInfinity (F : FloatFormat) (neg : Bool) (r : Nat) : Prop where
  lt : r < 2 * signWeight F
  inf : isInf F r = true
  sign : isNeg F r = neg

theorem isInfinity_flipSign {neg : Bool} (h : IsInfinity F neg a) : IsInfinity F (!neg) (flipSign F a) :=
  ⟨flipSign_lt F a, by rw [isInf_flipSign, h.inf], by rw [isNeg_flipSign, h.sign]⟩

/-- An infinity as the left operand of a valid sum. -/
theorem addPatterns_inf_left {neg : Bool} (ha : IsInfinity F neg a) (h : isInf F b = false ∨ neg = isNeg F b) :
    ∃ r, addPatterns F a b = some r ∧ IsInfinity F neg r := by
  refine ⟨a, ?_, ha⟩
  obtain h | h := h <;> simp [addPatterns, ha.inf, ha.sign, h]

/-- An infinity as the right operand of a valid sum: a left operand that is infinite too has its sign. -/
theorem addPatterns_inf_right {neg : Bool} (ha : IsInfinity F neg a) (hb : b < 2 * signWeight F)
    (h : isInf F b = false ∨ neg = isNeg F b) : ∃ r, addPatterns F b a = some r ∧ IsInfinity F neg r := by
  cases hinf : isInf F b with
  | false => exact ⟨a, by simp [addPatterns, hinf, ha.inf], ha⟩
  | true =>
    have hsign : neg = isNeg F b := h.resolve_left (by simp [hinf])
    exact addPatterns_inf_left ⟨hb, hinf, hsign.symm⟩ (.inr ha.sign.symm)

theorem mulPatterns_zero (ha : isInf F a = true ∨ isInf F b = true) (hz : isZero F a = true ∨ isZero F b = true) :
    mulPatterns F a b = none := by
  simp only [mulPatterns, Bool.or_eq_true_iff, ha, hz, if_true]

theorem mulPatterns_inf (h : isInf F a = true ∨ isInf F b = true) (ha : isZero F a = false) (hb : isZero F b = false) :
    ∃ r, mulPatterns F a b = some r ∧ IsInfinity F (isNeg F a != isNeg F b) r := by
  have hlt := infMag_lt F
  refine ⟨withSign F (isNeg F a != isNeg F b) (infMag F), ?_, withSign_lt _ hlt, ?_, isNeg_withSign _ hlt⟩
  · simp only [mulPatterns, Bool.or_eq_true_iff, h, if_true, ha, hb, Bool.false_eq_true, or_self, if_false]
  · rw [isInf, magOf_withSign _ hlt]
    exact decide_eq_true rfl

end

/-! ### The operators on words with an infinity -/

section
variable {F : FloatFormat} {w : Nat} {a b : BitVec w}

theorem toNat_lt (hF : Layout F w) (a : BitVec w) : a.toNat < 2 * signWeight F :=
  hF.two_pow ▸ a.isLt

theorem isInfinity_of_isInf (hF : Layout F w) (h : isInf F a.toNat = true) :
    IsInfinity F (isNeg F a.toNat) a.toNat := ⟨toNat_lt hF a, h, rfl⟩

/-- There is one infinity of each sign. -/
theorem eq_of_isInfinity {neg : Bool} (ha : IsInfinity F neg a.toNat) (hb : IsInfinity F neg b.toNat) : a = b := by
  apply BitVec.eq_of_toNat_eq
  rw [← withSign_isNeg_magOf ha.lt, ← withSign_isNeg_magOf hb.lt, ha.sign, hb.sign, magOf_of_isInf ha.inf,
    magOf_of_isInf hb.inf]

theorem floatOp_infinity (hF : Layout F w) {op : FloatOp} {f : Nat → Nat → Option Nat} {neg : Bool}
    (ha : isNaN F a.toNat = false) (hb : isNaN F b.toNat = false)
    (h : ∃ r, f a.toNat b.toNat = some r ∧ IsInfinity F neg r) : IsInfinity F neg (floatOp F op w f a b).toNat := by
  obtain ⟨r, hr, hinf⟩ := h
  rwa [toNat_floatOp_of_some hF ha hb hr hinf.lt]

theorem fadd_infinity (hF : Layout F w) (ha : isInf F a.toNat = true) (hb : isNaN F b.toNat = false)
    (h : isInf F b.toNat = false ∨ isNeg F a.toNat = isNeg F b.toNat) : fadd F a b = a ∧ fadd F b a = a := by
  have ha' := isInfinity_of_isInf hF ha
  have hna := isNaN_of_isInf ha
  exact ⟨eq_of_isInfinity (floatOp_infinity hF hna hb (addPatterns_inf_left ha' h)) ha',
    eq_of_isInfinity (floatOp_infinity hF hb hna (addPatterns_inf_right ha' (toNat_lt hF b) h)) ha'⟩

theorem fsub_infinity_left (hF : Layout F w) (ha : isInf F a.toNat = true) (hb : isNaN F b.toNat = false)
    (h : isInf F b.toNat = false ∨ isNeg F a.toNat ≠ isNeg F b.toNat) : fsub F a b = a := by
  have ha' := isInfinity_of_isInf hF ha
  have h' : isInf F (flipSign F b.toNat) = false ∨ isNeg F a.toNat = isNeg F (flipSign F b.toNat) := by
    rwa [isInf_flipSign, isNeg_flipSign, Bool.eq_not]
  exact eq_of_isInfinity (floatOp_infinity hF (isNaN_of_isInf ha) hb (addPatterns_inf_left ha' h')) ha'

theorem fsub_infinity_right (hF : Layout F w) (ha : isInf F a.toNat = true) (hb : isNaN F b.toNat = false)
    (h : isInf F b.toNat = false ∨ isNeg F a.toNat ≠ isNeg F b.toNat) :
    isInf F (fsub F b a).toNat = true ∧ isNeg F (fsub F b a).toNat = !isNeg F a.toNat := by
  have ha' := isInfinity_flipSign (isInfinity_of_isInf hF ha)
  have h' : isInf F b.toNat = false ∨ (!isNeg F a.toNat) = isNeg F b.toNat := by
    rwa [Bool.not_eq]
  have hinf : IsInfinity F (!isNeg F a.toNat) (fsub F b a).toNat :=
    floatOp_infinity hF hb (isNaN_of_isInf ha) (addPatterns_inf_right ha' (toNat_lt hF b) h')
  exact ⟨hinf.inf, hinf.sign⟩

theorem fmul_infinity (hF : Layout F w) (ha : isInf F a.toNat = true) (hb : isNaN F b.toNat = false)
    (h : isZero F b.toNat = false) :
    isInf F (fmul F a b).toNat = true ∧ isInf F (fmul F b a).toNat = true ∧
      isNeg F (fmul F a b).toNat = (isNeg F a.toNat != isNeg F b.toNat) ∧
      isNeg F (fmul F b a).toNat = (isNeg F a.toNat != isNeg F b.toNat) := by
  have hna := isNaN_of_isInf ha
  have hza := isZero_of_isInf hF ha
  have hab : IsInfinity F _ (fmul F a b).toNat := floatOp_infinity hF hna hb (mulPatterns_inf (.inl ha) hza h)
  have hba : IsInfinity F _ (fmul F b a).toNat := floatOp_infinity hF hb hna (mulPatterns_inf (.inr ha) h hza)
  exact ⟨hab.inf, hba.inf, hab.sign, hba.sign.trans (bne_comm ..)⟩

/-! ### The invalid operations on words -/

theorem isNaN_of_nan_operand (hF : Layout F w) (h : isNaN F a.toNat = true ∨ isNaN F b.toNat = true) :
    isNaN F (fadd F a b).toNat = true ∧ isNaN F (fsub F a b).toNat = true ∧ isNaN F (fmul F a b).toNat = true :=
  ⟨isNaN_floatOp_of_nan hF h, isNaN_floatOp_of_nan hF h, isNaN_floatOp_of_nan hF h⟩

theorem isNaN_of_infinities (hF : Layout F w) (ha : isInf F a.toNat = true) (hb : isInf F b.toNat = true) :
    (isNeg F a.toNat ≠ isNeg F b.toNat → isNaN F (fadd F a b).toNat = true) ∧
      (isNeg F a.toNat = isNeg F b.toNat → isNaN F (fsub F a b).toNat = true) := by
  refine ⟨fun h => isNaN_floatOp_of_none hF (addPatterns_unlike ha hb h), fun h => isNaN_floatOp_of_none hF ?_⟩
  refine addPatterns_unlike ha ((isInf_flipSign F _).trans hb) ?_
  rw [isNeg_flipSign, h]
  exact (Bool.not_ne_self _).symm

theorem isNaN_of_zero_times_infinity (hF : Layout F w) (ha : isInf F a.toNat = true) (hb : isZero F b.toNat = true) :
    isNaN F (fmul F a b).toNat = true ∧ isNaN F (fmul F b a).toNat = true :=
  ⟨isNaN_floatOp_of_none hF (mulPatterns_zero (.inl ha) (.inr hb)),
    isNaN_floatOp_of_none hF (mulPatterns_zero (.inr ha) (.inl hb))⟩

end

end Sys2Proof.Proofs.FloatSpecials

open Sys2Proof Sys2Proof.Proofs.FloatPattern Sys2Proof.Proofs.FloatSpecials

/-- Settles O34: no case of an invalid operation has a result, and the pattern made from the free bits has a fraction
that is not zero. -/
theorem invalidFloatOperationsGiveSomeNan : Obligations.InvalidFloatOperationsGiveSomeNan :=
  ⟨fun _ _ => isNaN_of_nan_operand layout_binary32, fun _ _ => isNaN_of_infinities layout_binary32,
    fun _ _ => isNaN_of_zero_times_infinity layout_binary32, fun _ _ => isNaN_of_nan_operand layout_binary64,
    fun _ _ => isNaN_of_infinities layout_binary64, fun _ _ => isNaN_of_zero_times_infinity layout_binary64⟩

/-- Settles O35: each valid operation answers an infinity with the sign of its rule, and there is one of each sign. -/
theorem infiniteOperandsGiveInfinities : Obligations.InfiniteOperandsGiveInfinities :=
  ⟨fun _ _ ha hb => ⟨fadd_infinity layout_binary32 ha hb, fsub_infinity_left layout_binary32 ha hb,
      fsub_infinity_right layout_binary32 ha hb, fmul_infinity layout_binary32 ha hb⟩,
    fun _ _ ha hb => ⟨fadd_infinity layout_binary64 ha hb, fsub_infinity_left layout_binary64 ha hb,
      fsub_infinity_right layout_binary64 ha hb, fmul_infinity layout_binary64 ha hb⟩⟩

end
